-- ==== Sys2Proof/Word.lean ====
section
/-! DEFINITION. The word types of the frames, the numbering of ports, stations, channels and tables, and the
plainest arithmetic on words: small sets held as bit maps, and numbers as bytes, most significant byte first. -/

namespace Sys2Proof

/-- One byte of a frame (R159). -/
abbrev Byte := BitVec 8

/-- A port P0 to P3 (00_scope.md, Identifiers). -/
abbrev Port := Fin 4

/-- A station index 0 to 7 (00_scope.md, The stations): S0 to S3 are 0 to 3, C0 is 4, L0 and L1 are 5 and 6, K0 is 7. -/
abbrev Sta := Fin 8

/-- A twisting station, S0 to S3 and C0, by its station index 0 to 4. -/
abbrev Twi := Fin 5

/-- A strander S0 to S3. -/
abbrev Strander := Fin 4

/-- A loom: 0 is L0 and 1 is L1. -/
abbrev Loom := Fin 2

/-- A pulse channel 0 to 10 (R15). -/
abbrev Chan := Fin 11

/-- A closer position: 0 to 3 are a to d (R82). -/
abbrev Pos := Fin 4

/-- A slot of the lot table (R23). -/
abbrev Slot := Fin 16

/-- An index of the plan memory (R102). -/
abbrev SegIx := Fin 64

/-- A set of the members 0 to `n` − 1 of a list, as the bit map the frames send it as (R177). -/
abbrev BitSet (n : Nat) := BitVec n

namespace BitSet

/-- Member `i` is in the set. -/
def has {n : Nat} (x : BitSet n) (i : Nat) : Bool := x.getLsbD i

/-- The set with member `i` added. -/
def add {n : Nat} (x : BitSet n) (i : Nat) : BitSet n := x ||| BitVec.twoPow n i

/-- The set with member `i` taken out. -/
def del {n : Nat} (x : BitSet n) (i : Nat) : BitSet n := x &&& ~~~(BitVec.twoPow n i)

end BitSet

/-- The low `k` bytes of `v`, most significant byte first (00_scope.md, Numbers and frames). -/
def bytesOf : Nat → Nat → List Byte
  | 0, _ => []
  | k + 1, v => BitVec.ofNat 8 (v / 256 ^ k) :: bytesOf k v

/-- The number that bytes spell, most significant byte first. -/
def natOf (bs : List Byte) : Nat := bs.foldl (fun acc b => acc * 256 + b.toNat) 0

/-- A value clamped to `lo..hi` (00_scope.md, Arithmetic words). -/
def clampNat (lo hi v : Nat) : Nat := if v < lo then lo else if hi < v then hi else v

/-- A signed value clamped to `lo..hi`. -/
def clampInt (lo hi v : Int) : Int := if v < lo then lo else if hi < v then hi else v

end Sys2Proof
end

