-- ==== Sys2Proof/Syntax.lean ====
section
/-! DEFINITION. The commands of the part: one constructor of `Instr` per row of spec/opcode_table.json. A request is
the arrival of one valid frame on a port, with the fields its payload carries (R165's table of request kinds); the
others are the events of the links, the input lines, the timers and the supply. -/

namespace Sys2Proof

/-- The commands. Request fields have the width the frame gives them, so that a value out of range can be sent. -/
inductive Instr where
  /-- STATION_READ (R13). -/
  | stationRead (p : Port) (station : Byte)
  /-- FAULT_CLEAR naming one station (R10). -/
  | faultClear (p : Port) (station : Byte)
  /-- FAULT_CLEAR with 0xFF, ALL (R11). -/
  | faultClearAll (p : Port)
  /-- STATION_BIND (R167). -/
  | stationBind (p : Port) (station : Byte)
  /-- STATION_UNBIND (R168). -/
  | stationUnbind (p : Port) (station : Byte)
  /-- PORT_STATUS (R172). -/
  | portStatus (p : Port)
  /-- A valid frame of a kind that is not in the table of request kinds (R165). -/
  | unknownRequest (p : Port) (kind : Byte) (payload : List Byte)
  /-- LOT_CREATE (R29). -/
  | lotCreate (p : Port) (lot : BitVec 16) (kind : Byte)
  /-- LOT_WRITE: pairs of field number and value (R30). -/
  | lotWrite (p : Port) (lot : BitVec 16) (pairs : List (Byte × BitVec 32))
  /-- LOT_CHECK (R34). -/
  | lotCheck (p : Port) (lot value : BitVec 16)
  /-- LOT_REOPEN (R35). -/
  | lotReopen (p : Port) (lot : BitVec 16)
  /-- LOT_HOLD (R40). -/
  | lotHold (p : Port) (lot : BitVec 16)
  /-- LOT_RESUME (R41). -/
  | lotResume (p : Port) (lot : BitVec 16)
  /-- LOT_CLOSE (R42). -/
  | lotClose (p : Port) (lot : BitVec 16)
  /-- LOT_DELETE (R43). -/
  | lotDelete (p : Port) (lot : BitVec 16)
  /-- LOT_READ (R45). -/
  | lotRead (p : Port) (lot : BitVec 16)
  /-- LOT_ATTACH (R37). -/
  | lotAttach (p : Port) (station : Byte) (lot : BitVec 16)
  /-- LOT_DETACH (R38). -/
  | lotDetach (p : Port) (station : Byte)
  /-- LAY_READ (R61). -/
  | layRead (p : Port) (station : Byte)
  /-- STATION_RUN (R65, R111). -/
  | stationRun (p : Port) (station : Byte)
  /-- STATION_STOP (R67, R112). -/
  | stationStop (p : Port) (station : Byte)
  /-- BOBBIN_REGISTER (R84). -/
  | bobbinRegister (p : Port) (bobbin : BitVec 16) (capacity : BitVec 32)
  /-- BOBBIN_REMOVE (R85). -/
  | bobbinRemove (p : Port) (bobbin : BitVec 16)
  /-- BOBBIN_ISSUE (R86). -/
  | bobbinIssue (p : Port) (station : Byte) (bobbin : BitVec 16)
  /-- BOBBIN_DOFF (R88). -/
  | bobbinDoff (p : Port) (station : Byte)
  /-- BOBBIN_MOUNT (R90). -/
  | bobbinMount (p : Port) (station place : Byte) (bobbin : BitVec 16)
  /-- BOBBIN_DISMOUNT (R91). -/
  | bobbinDismount (p : Port) (station place : Byte)
  /-- BOBBIN_RETURN (R92). -/
  | bobbinReturn (p : Port) (bobbin : BitVec 16)
  /-- BOBBIN_READ (R99). -/
  | bobbinRead (p : Port) (bobbin : BitVec 16)
  /-- FEED_READ (R100). -/
  | feedRead (p : Port) (station : Byte)
  /-- SEGMENT_WRITE (R104). -/
  | segmentWrite (p : Port) (index : Byte) (rows : BitVec 16) (left right stepRows next : Byte)
  /-- SEGMENT_READ (R105). -/
  | segmentRead (p : Port) (index : Byte)
  /-- ROW_REPORT (R113): the knot map's most significant bit is needle 0 (R174). -/
  | rowReport (p : Port) (station : Byte) (row : BitVec 24) (knots : BitVec 256)
  /-- ROW_REPLY with ACCEPT (R120). -/
  | rowReplyAccept (p : Port) (station : Byte)
  /-- ROW_REPLY with ABANDON (R121). -/
  | rowReplyAbandon (p : Port) (station : Byte)
  /-- KNOT_FAULT_READ (R122). -/
  | knotFaultRead (p : Port) (station count : Byte)
  /-- LOOM_READ (R123). -/
  | loomRead (p : Port) (station : Byte)
  /-- METER_READ (R136). -/
  | meterRead (p : Port)
  /-- COILER_REPORT with CUT_DONE (R147). -/
  | cutDone (p : Port) (station arbor : Byte)
  /-- COILER_REPORT with PACK_DONE (R149). -/
  | packDone (p : Port) (station arbor : Byte)
  /-- TAG_LOAD: always eight tag fields, of which the count says how many are read (R151, R166). -/
  | tagLoad (p : Port) (count : Byte) (tags : Vector (BitVec 24) 8)
  /-- COIL_TAKE (R153). -/
  | coilTake (p : Port)
  /-- COILER_READ (R156). -/
  | coilerRead (p : Port) (part : Byte)
  /-- NOTICE_READ (R183). -/
  | noticeRead (p : Port) (count : Byte)
  /-- ROUTE_WRITE (R181). -/
  | routeWrite (p : Port) (cls ports : Byte)
  /-- ROUTE_READ (R181). -/
  | routeRead (p : Port)
  /-- ATTN_ENABLE (R184). -/
  | attnEnable (p : Port) (value : Byte)
  /-- SETTINGS_WRITE: pairs of setting number and value (R187). -/
  | settingsWrite (p : Port) (pairs : List (Byte × BitVec 32))
  /-- SETTINGS_READ (R187). -/
  | settingsRead (p : Port)
  /-- CAL_WRITE: pairs of item code and value (R188). -/
  | calWrite (p : Port) (pairs : List (Byte × BitVec 32))
  /-- CAL_READ (R188). -/
  | calRead (p : Port)
  /-- STORE_COMMIT (R189). -/
  | storeCommit (p : Port)
  /-- The write of the settings store completes (R189, R191). -/
  | storeCommitCompletion
  /-- A byte arrives on a link, with its stop bit or broken (R160, R161). -/
  | byteReceived (p : Port) (byte : Byte) (stopBit : Bool)
  /-- More than 2 ms pass inside a frame (R161). -/
  | byteGapExpiry (p : Port)
  /-- The last byte of the answer in progress has gone (R162). -/
  | answerComplete (p : Port)
  /-- A port's silence period elapses (R169). -/
  | silenceExpiry (p : Port)
  /-- The raw level of a pulse input becomes `level` (R16). -/
  | rawInputChange (ch : Chan) (level : Bool)
  /-- A pending change has been held for the filter time (R16). -/
  | pendingChangeAccept (ch : Chan)
  /-- An open steady window reaches the window time limit (R52). -/
  | windowTimeLimitExpiry (t : Twi)
  /-- The stillness timer of a twisting station expires (R21). -/
  | stillnessExpiry (t : Twi)
  /-- The retry wait of a station elapses (R12). -/
  | retryWaitExpiry (i : Sta)
  /-- The run-up count reaches the run-up limit (R73). -/
  | runUpLong (t : Twi)
  /-- The run-down count reaches the run-down limit (R74). -/
  | runDownLong (t : Twi)
  /-- The 50 ms of a mark pulse elapse (R145). -/
  | markPulseEnd
  /-- The supply monitor reports supply low (R190). -/
  | supplyLow
  /-- The retained image is written (R190). -/
  | saveComplete
  /-- The supply monitor reports recovery (R190). -/
  | supplyRecovery
  /-- Power comes to the unpowered part (R191). -/
  | powerUp
  /-- The RESET input is asserted (R178). -/
  | resetAssert
  /-- RESET has stayed asserted for 1 ms (R192). -/
  | lineReset
  /-- The power fails outright (R190). -/
  | powerFailure
  /-- The RESET input is released (R178). -/
  | resetRelease
  deriving DecidableEq, Repr

end Sys2Proof
end

