-- ==== Sys2Proof/Config.lean ====
section
/-! DEFINITION. What the spec fixes as numbers, each named once with its rule, and the two values it leaves open
(free values: no proof can see what they are). Lengths in mm or µm, times in ms or µs as the names say. -/

namespace Sys2Proof.Config

/-- The greatest whole-millimetre length, and the top of every saturating 32-bit tally (00_scope.md; R20). -/
def maxMm : Nat := 4294967295

/-- The stillness time of R21, ms. -/
def stillMs : Nat := 200

/-- The saturation of the phase counts, scale units (R71). -/
def maxPhase : Nat := 240

/-- The byte gap of R161, µs. -/
def byteGapUs : Nat := 2000

/-- The time RESET must stay asserted (R178), µs. -/
def resetHoldUs : Nat := 1000

/-- The length of a mark pulse (R145), ms. -/
def markMs : Nat := 50

/-- The most payload bytes of a request frame (R159). -/
def maxPayload : Nat := 64

/-- The most entries of a notice queue (R182). -/
def queueMax : Nat := 32

/-- The greatest repeat count of a notice entry (R182). -/
def repeatMax : Nat := 255

/-- The most bobbin records (R81). -/
def bobbinMax : Nat := 64

/-- The range of a bobbin's capacity, mm (R81). -/
def capacityMin : Nat := 1000
def capacityMax : Nat := 100000000

/-- The most tags of the free tag list (R150). -/
def tagMax : Nat := 32

/-- The greatest tag number (00_scope.md, Identifiers). -/
def tagTop : Nat := 16777215

/-- The most records of the outbound coil list (R152). -/
def outboundMax : Nat := 12

/-- The most bobbin ids of a coil's bobbin list (R98). -/
def coilBobbinMax : Nat := 8

/-- The most entries of a knot fault list (R114). -/
def faultMax : Nat := 16

/-- The stall distance at which the wheel is judged stalled, µm (R133). -/
def stallUm : Nat := 2000000

/-- The capstan length of a slip window, µm (R131). -/
def slipUm : Nat := 10000000

/-- FREE VALUE (assumption log 12). The two-byte word code that BOBBIN_READ (R99) sends for the winding place of
strander `i`: R177 sends a place as its word code of R176, and R176 gives codes for a to d, UPPER and LOWER alone. -/
opaque windingPlaceCode : Nat → BitVec 16

/-- FREE VALUE (assumption log 5). Whether, on the `n`-th C0 capstan increment, the bobbin table does its work before the
metering unit or after it: R19 gives their work on one increment no order. -/
opaque drawsFirst : Nat → Bool

end Sys2Proof.Config
end

