-- ==== Sys2Proof/Machine/State.lean ====
section
/-! DEFINITION. Everything the spec gives the part, as plain data, and the part right after its first cold start.
Times: `now` is the part's own microsecond count since the last start. The works clock (00_scope.md, Time) is the view
`worksClock` of it (Ops.lean), so that waits below a millisecond are exact. Fields named `…Ms` and `…Us` hold readings
of that count in ms and µs. Readings that records carry are 32-bit works clock readings. -/

namespace Sys2Proof.Machine

/-- Reasons a command stops the part. There are none: by the spec every command either has its effect, is answered
with an answer code, or is ignored, so no command of this block faults. -/
inductive Fault
  deriving DecidableEq, Repr

/-- Reasons the model refuses a command. -/
inductive Refusal where
  /-- Raised by an arm of `exec` whose command has no meaning yet; safe, since nothing is claimed of the command. -/
  | notModelled (mnemonic : String)
  deriving DecidableEq, Repr

/-! ## Lengths and times -/

/-- A length held with µm carry (00_scope.md, Lengths): whole mm and a carry of 0 to 999 µm. -/
structure Len where
  mm : Nat
  um : Nat
  deriving DecidableEq, Repr

/-! ## Stations (R1, R2) -/

/-- The states of a station (R1, R63, R108). -/
inductive RunState where
  | idle | standby | runUp | steady | runDown | halted | knotting | rowHold | active
  deriving DecidableEq, Repr

/-- The kinds of a station (R1). -/
inductive StationKind where
  | strander | closer | loom | coiler
  deriving DecidableEq, Repr

/-- The halt causes of R2, in the order of R176. -/
inductive Cause where
  | laySevere | layDrift | linkSilent | power | reset | bobbinFull | feedOut | lotHold | lotEnd | cutStop
  | arborBusy | coilerHalt
  deriving DecidableEq, Repr

/-- The eleven warnings of R75, in the order of its table, which is the bit order of setting 6 (R186). -/
inductive Warning where
  | runUpLong | runDownLong | layDrift | windowStall | overwind | bobbinLow | slip | wheelStall | planClamped | tagsLow
  | coilListHigh
  deriving DecidableEq, Repr

/-- A station record (R1); the index and the kind are its place in the table. The phase counts of the twisting
stations stand with their timers in `Twist`. -/
structure Station where
  bound : Option Port
  state : RunState
  causes : BitSet 12
  lot : Option Nat
  retryUntilMs : Option Nat
  deriving DecidableEq, Repr

/-! ## Twisting stations: lay, phases, stillness, length -/

/-- The measuring context of a twisting station (R47). -/
structure Lay where
  isOpen : Bool
  closeCount : Nat
  p : Nat
  dl : Nat
  openMs : Nat
  lastLay : Option Nat
  lastE : Option Int
  f : Option Int
  seedPending : Bool
  good : Nat
  drift : Nat
  deriving DecidableEq, Repr

/-- A phase timer (R71): the count it stopped at, and while it runs its start time and the scale in force then. -/
structure PhaseTimer where
  count : Nat
  running : Option (Nat × Nat)
  deriving DecidableEq, Repr

/-- What the part keeps per twisting station beside the station record: the measuring context (R47), the phase timers
with their marks (R71, R73, R74), the stillness timer and flag (R21), the run-length accumulator (R20). -/
structure Twist where
  lay : Lay
  runUp : PhaseTimer
  runDown : PhaseTimer
  runUpLong : Bool
  runDownLong : Bool
  stillMs : Option Nat
  still : Bool
  acc : Len
  deriving DecidableEq, Repr

/-! ## Pulse channels (R15, R16) -/

/-- A channel: the raw level at its pin, the accepted level, and the pending change with the time it began. -/
structure Channel where
  raw : Bool
  level : Bool
  pending : Option (Bool × Nat)
  deriving DecidableEq, Repr

/-! ## Settings (R186) -/

/-- Edge modes (R16). -/
inductive EdgeMode where
  | off | rise | fall | both
  deriving DecidableEq, Repr

/-- Filters (R16). -/
inductive Filter where
  | off | us20 | us100 | us500
  deriving DecidableEq, Repr

/-- The retry wait (R12). -/
inductive RetryWait where
  | off | s2 | s10 | s30
  deriving DecidableEq, Repr

/-- The phase scale (R71). -/
inductive Scale where
  | ms20 | ms80 | ms320 | ms1280
  deriving DecidableEq, Repr

/-- A port's silence period (R169). -/
inductive Silence where
  | off | ms200 | ms500 | ms1000 | ms2000
  deriving DecidableEq, Repr

/-- The works settings record, with routing table, attention enables and calibration (R186). -/
structure Settings where
  retryWait : RetryWait
  windowLimit : Nat
  scale : Scale
  runUpLimit : Nat
  runDownLimit : Nat
  disable : BitSet 11
  haltEnable : BitSet 3
  lowMark : Nat
  needles : Vector Nat 2
  tagsLow : Nat
  listHigh : Nat
  silence : Vector Silence 4
  routing : Vector (BitSet 4) 19
  attn : BitSet 4
  edge : Vector EdgeMode 11
  filter : Vector Filter 11
  capstan : Vector Nat 5
  flyer : Vector Nat 5
  wheel : Nat
  deriving DecidableEq, Repr

/-! ## Lots (R23 to R27) -/

/-- Lay directions (R24). -/
inductive Dir where
  | s | z
  deriving DecidableEq, Repr

/-- The construction of a STRAND lot (R24). -/
structure StrandLot where
  dir : Dir
  lay : Nat
  tol : Nat
  turns : Nat
  fill : Nat
  ordered : Nat
  deriving DecidableEq, Repr

/-- The construction of a ROPE lot (R25). -/
structure RopeLot where
  dir : Dir
  lay : Nat
  tol : Nat
  turns : Nat
  strandLot : Nat
  strands : Nat
  takeUp : Nat
  coilLen : Nat
  ordered : Nat
  slow : Nat
  mark : Nat
  slip : Nat
  deriving DecidableEq, Repr

/-- The construction of a NET lot (R26). -/
structure NetLot where
  strandLot : Nat
  mesh : Nat
  knot : Nat
  first : Nat
  last : Nat
  head : SegIx
  ordered : Nat
  missed : Nat
  deriving DecidableEq, Repr

/-- The construction of a lot, which fixes its kind (R23). -/
inductive Build where
  | strand (c : StrandLot)
  | rope (c : RopeLot)
  | net (c : NetLot)
  deriving DecidableEq, Repr

/-- The states of a lot that is present (R23); an EMPTY record is `none` in the table. -/
inductive LotState where
  | draft | ready | active | held | complete | closed
  deriving DecidableEq, Repr

/-- A lot (R23, R27). `produced` is the length produced of a STRAND or ROPE lot; `rejected` and `rows` are the panels
rejected and rows knotted of a NET lot. -/
structure Lot where
  number : Nat
  state : LotState
  check : BitVec 16
  stations : BitSet 8
  build : Build
  started : Nat
  done : Nat
  produced : Nat
  rejected : Nat
  rows : Nat
  deriving DecidableEq, Repr

/-! ## Plan memory (R102) -/

/-- A step of a taper segment. -/
inductive TaperStep where
  | inward | none | outward
  deriving DecidableEq, Repr

/-- A segment record; `next` is `none` for END. -/
structure Segment where
  rows : Nat
  left : TaperStep
  right : TaperStep
  stepRows : Nat
  next : Option SegIx
  deriving DecidableEq, Repr

/-! ## Bobbins (R81, R82) -/

/-- The states of a bobbin (R82). -/
inductive BobbinState where
  | spare | winding | full | mounted | runOut | part | spent
  deriving DecidableEq, Repr

/-- A loom's two feeds (R82). -/
inductive Feed where
  | upper | lower
  deriving DecidableEq, Repr

/-- The places a bobbin can occupy (R82). -/
inductive Place where
  | winding (i : Strander)
  | closer (i : Pos)
  | feed (l : Loom) (f : Feed)
  deriving DecidableEq, Repr

/-- A bobbin record (R81). What a place holds is the record whose `place` it is. -/
structure Bobbin where
  id : Nat
  capacity : Nat
  state : BobbinState
  lot : Option Nat
  dir : Option Dir
  wound : Len
  drawn : Len
  fillPoint : Option Nat
  place : Option Place
  overwind : Bool
  low : Bool
  deriving DecidableEq, Repr

/-! ## Looms (R107) -/

/-- Directives (R118); `none` is sent with OUT_OF_SEQUENCE (R174). -/
inductive Directive where
  | none | next | stop | hold | panelEnd
  deriving DecidableEq, Repr

/-- A row order (R107). -/
structure RowOrder where
  panel : Nat
  row : Nat
  first : Nat
  last : Nat
  deriving DecidableEq, Repr

/-- An entry of a knot fault list (R114). -/
structure KnotFault where
  panel : Nat
  row : Nat
  missed : Nat
  stray : Nat
  needle : Nat
  deriving DecidableEq, Repr

/-- A loom position record (R107). -/
structure LoomPos where
  inPanel : Bool
  endPending : Bool
  segment : SegIx
  rowIn : Nat
  row : Nat
  first : Nat
  last : Nat
  clampNoted : Bool
  panel : Nat
  openRow : Bool
  lastTaken : Option Nat
  lastAnswer : Option (Directive × Option RowOrder)
  shortfall : Len
  faults : List KnotFault
  overflow : Bool
  deriving DecidableEq, Repr

/-! ## Metering and coiling (R126, R138, R139) -/

/-- The metering unit's own fields (R126). -/
structure Meter where
  stall : Bool
  stallDist : Nat
  slipOpen : Bool
  winCap : Nat
  winWheel : Nat
  lastSlip : Option Int
  deriving DecidableEq, Repr

/-- Length sources of a coil (R127). -/
inductive Source where
  | wheel | capstan | mixed
  deriving DecidableEq, Repr

/-- A coil record (R139). -/
structure Coil where
  tag : Option Nat
  lot : Nat
  seq : Nat
  length : Len
  overrun : Nat
  source : Source
  slip : Option Int
  slipFlag : Bool
  minF : Option Int
  maxF : Option Int
  drift : Nat
  shortfall : Len
  bobbins : List Nat
  overflow : Bool
  remnant : Bool
  start : BitVec 32
  cut : Option (BitVec 32)
  deriving DecidableEq, Repr

/-- K0's arbors. -/
inductive ArborId where
  | a | b
  deriving DecidableEq, Repr

/-- The states of an arbor that holds a coil (R138). -/
inductive ArborPhase where
  | winding | slowing | cutting | packing | posting
  deriving DecidableEq, Repr

/-- An arbor record (R138): a coil record stands exactly in the states other than FREE. -/
inductive Arbor where
  | free
  | busy (ph : ArborPhase) (c : Coil)
  deriving DecidableEq, Repr

/-- The coiling unit: the arbors, the free tag list (R150), the outbound coil list (R152), the unassigned-rope tally
(R130), the mark pulse in progress with its start (R145), and the wheel tally, K0's run-length accumulator (R20). -/
structure Coiler where
  a : Arbor
  b : Arbor
  tags : List Nat
  outbound : List Coil
  unassigned : Len
  markMs : Option Nat
  wheelTally : Len
  deriving DecidableEq, Repr

/-! ## Notices (R179, R182) -/

/-- Notice classes, in code order from 1 (R176). -/
inductive NoticeClass where
  | state | fault | layWarn | phaseWarn | feed | bobbin | row | planClamp | knot | slip | wheel | coilPosted | coilWait
  | tags | list | lot | link | stored | restart
  deriving DecidableEq, Repr

/-- A notice's subject (R179). -/
inductive Subject where
  | station (i : Sta)
  | lot (n : Nat)
  | bobbin (n : Nat)
  | port (p : Port)
  deriving DecidableEq, Repr

/-- An entry of a notice queue (R182). -/
structure Entry where
  cls : NoticeClass
  subject : Subject
  detail : BitVec 16
  repeats : Nat
  first : BitVec 32
  deriving DecidableEq, Repr

/-! ## Ports (R158) -/

/-- A request frame without sync, length and CRC bytes (R159). -/
structure Frame where
  kind : Byte
  payload : List Byte
  deriving DecidableEq, Repr

/-- The frame assembly state with the frame so far and the CRC register (R158, R160). -/
inductive Assembly where
  | hunt
  | kind (crc : Byte)
  | length (crc kind : Byte)
  | payload (crc kind : Byte) (size : Nat) (got : List Byte)
  | check (crc kind : Byte) (got : List Byte)
  deriving DecidableEq, Repr

/-- Answer codes (R164). -/
inductive Code where
  | ok | clamped | unknownRequest | badLength | outOfRange | notFound | notBound | stationHeld | wrongState | lotFrozen
  | checkMismatch | planInvalid | wrongLot | tableFull | duplicate | retryWait | noBobbin | feedMissing | noArbor | lotEnd
  | tagPending | outOfSequence | rowTaken | listEmpty | busy
  deriving DecidableEq, Repr

/-- The answer in progress (R158, R162): its frame's fields and the moment its request was taken. -/
structure Answer where
  kind : Byte
  code : Code
  status : Byte
  payload : List Byte
  startUs : Nat
  deriving DecidableEq, Repr

/-- A port unit (R158), with the arrival time of the last byte for the gap of R161. -/
structure PortUnit where
  asm : Assembly
  byteUs : Nat
  answer : Option Answer
  held : Option Frame
  live : Bool
  lastValidMs : Nat
  frameErr : Bool
  noticeOvf : Bool
  deriving DecidableEq, Repr

/-! ## Supply and store (R186 to R192) -/

/-- Whether the part has power and where the save stands (R190): RUNNING is between a start and supply low. -/
inductive Power where
  | off | running | saving | saved
  deriving DecidableEq, Repr

/-- The RESET input (R178): released, asserted since a time, or asserted with nothing more to follow from it. -/
inductive ResetPin where
  | released | held (sinceUs : Nat) | spent
  deriving DecidableEq, Repr

/-- The settings store (R189): its valid flag and its copy. -/
structure Store where
  valid : Bool
  copy : Settings
  deriving DecidableEq, Repr

/-- A commit in flight (R189): its snapshot and the port that sent it; `none` for the rewrite of R191. -/
structure Commit where
  snapshot : Settings
  sender : Option Port
  deriving DecidableEq, Repr

/-- The retained image (R190). -/
structure Image where
  lots : Vector (Option Lot) 16
  segments : Vector Segment 64
  bobbins : List Bobbin
  residues : Vector Nat 4
  closerShort : Len
  stations : Vector Station 8
  accs : Vector Len 5
  looms : Vector LoomPos 2
  coiler : Coiler
  settings : Settings
  deriving DecidableEq, Repr

/-! ## The state -/

/-- Everything the part holds, and the queue of commands that wait. -/
structure State where
  /-- Commands waiting, first in, first out. -/
  pending : List Instr
  /-- The model's own: µs since the last start; the works clock is a view of it. -/
  now : Nat
  /-- The model's own: how many open choices have been made (R19 leaves the order of the bobbin table and the metering unit
  on a C0 capstan increment open; each such increment makes one choice, `Config.drawsFirst`). -/
  choices : Nat
  power : Power
  /-- The last report of the supply monitor is recovery (R190). -/
  supplyGood : Bool
  resetPin : ResetPin
  stations : Vector Station 8
  twists : Vector Twist 5
  channels : Vector Channel 11
  ports : Vector PortUnit 4
  queues : Vector (List Entry) 4
  lots : Vector (Option Lot) 16
  segments : Vector Segment 64
  bobbins : List Bobbin
  residues : Vector Nat 4
  /-- C0's shortfall tally (R95); a loom's stands in its position record. -/
  closerShort : Len
  looms : Vector LoomPos 2
  meter : Meter
  coiler : Coiler
  settings : Settings
  store : Store
  commit : Option Commit
  imageValid : Bool
  image : Image
  deriving DecidableEq, Repr

/-! ## Values at a cold start -/

/-- The zero length. -/
def Len.zero : Len := ⟨0, 0⟩

/-- A station record at cold start (R14). -/
def Station.cold : Station :=
  { bound := none, state := .idle, causes := 0, lot := none, retryUntilMs := none }

/-- A measuring context after any start (R62). DESIGN CHOICE: its open time, to which R62 gives no value, is 0; no command
reads it while the window is NONE (assumption log 2). -/
def Lay.cold : Lay :=
  { isOpen := false, closeCount := 0, p := 0, dl := 0, openMs := 0, lastLay := none, lastE := none, f := none,
    seedPending := true, good := 0, drift := 0 }

/-- A stopped phase timer (R80). -/
def PhaseTimer.cold : PhaseTimer := { count := 0, running := none }

/-- A twisting station's own fields after any start, with its accumulator `acc` (R14, R22, R62, R80). -/
def Twist.fresh (acc : Len) : Twist :=
  { lay := .cold, runUp := .cold, runDown := .cold, runUpLong := false, runDownLong := false, stillMs := none,
    still := true, acc := acc }

/-- A channel at a start, its raw level kept (R22). -/
def Channel.fresh (raw : Bool) : Channel := { raw := raw, level := raw, pending := none }

/-- A port unit after a start at the works clock time `t` (R158). DESIGN CHOICE: the arrival of the last byte, which R161's
gap needs and to which R158 gives no value after a start, is 0 after every start, a line reset included; nothing reads it in
HUNT (assumption log 2). -/
def PortUnit.fresh (t : Nat) : PortUnit :=
  { asm := .hunt, byteUs := 0, answer := none, held := none, live := true, lastValidMs := t, frameErr := false,
    noticeOvf := false }

/-- The defaults of the works settings record (R186). -/
def Settings.default : Settings :=
  { retryWait := .s10, windowLimit := 10, scale := .ms80, runUpLimit := 150, runDownLimit := 100, disable := 0,
    haltEnable := 0b101, lowMark := 50000, needles := .replicate 2 200, tagsLow := 4, listHigh := 9,
    silence := .replicate 4 .ms1000, routing := .replicate 19 1, attn := 0b1111, edge := .replicate 11 .rise,
    filter := .replicate 11 .us20, capstan := .replicate 5 1000, flyer := .replicate 5 1, wheel := 1000 }

/-- An empty segment record at cold start (R125). -/
def Segment.cold : Segment := { rows := 0, left := .none, right := .none, stepRows := 1, next := none }

/-- A loom position record at cold start (R125). -/
def LoomPos.cold : LoomPos :=
  { inPanel := false, endPending := false, segment := 0, rowIn := 1, row := 1, first := 0, last := 0,
    clampNoted := false, panel := 0, openRow := false, lastTaken := none, lastAnswer := none, shortfall := .zero,
    faults := [], overflow := false }

/-- The metering unit after any start (R137) and at LOT_ATTACH of a ROPE lot (R135). -/
def Meter.cold : Meter :=
  { stall := false, stallDist := 0, slipOpen := false, winCap := 0, winWheel := 0, lastSlip := none }

/-- The coiling unit at cold start (R157). -/
def Coiler.cold : Coiler :=
  { a := .free, b := .free, tags := [], outbound := [], unassigned := .zero, markMs := none, wheelTally := .zero }

/-- A retained image that nothing has been saved into. It is never read while it is invalid (R191). -/
def Image.blank : Image :=
  { lots := .replicate 16 none, segments := .replicate 64 .cold, bobbins := [], residues := .replicate 4 0,
    closerShort := .zero, stations := .replicate 8 .cold, accs := .replicate 5 .zero, looms := .replicate 2 .cold,
    coiler := .cold, settings := .default }

/-- The part right after a cold start (R191 and the after-start rules of every chapter) with an invalid settings store,
the raw inputs low and no command waiting. The settings store's first content, the raw levels and the model's own
fields are named in the assumption log (entries 2, 3 and 5). -/
def State.reset : State :=
  { pending := [], now := 0, choices := 0, power := .running, supplyGood := true, resetPin := .released,
    stations := .replicate 8 .cold, twists := .replicate 5 (.fresh .zero), channels := .replicate 11 (.fresh false),
    ports := .replicate 4 (.fresh 0), queues := .replicate 4 [], lots := .replicate 16 none,
    segments := .replicate 64 .cold, bobbins := [], residues := .replicate 4 0, closerShort := .zero,
    looms := .replicate 2 .cold, meter := .cold, coiler := .cold, settings := .default,
    store := { valid := false, copy := .default }, commit := none, imageValid := false, image := .blank }

end Sys2Proof.Machine
end

