-- ==== Sys2Proof/Machine/Operands.lean ====
section
/-! DEFINITION. The operand forms: length arithmetic with its µm carry, the views between station index, kind and
block, the codes of every enumerated value (R164, R165, R174 to R177, R186), and the encoding of answer payloads (R177). -/

namespace Sys2Proof.Machine

/-! ## Lengths (R20) -/

/-- A length in µm. -/
def Len.total (l : Len) : Nat := l.mm * 1000 + l.um

/-- The length of `u` µm. -/
def Len.ofUm (u : Nat) : Len := ⟨u / 1000, u % 1000⟩

/-- Adds `d` µm, keeping the carry and saturating as R20 states. DEDUCED: the lengths of which their rules say only that they
saturate, such as the shortfall tallies of R95, take the carry of R20, 999 µm, when they do (assumption log 17). -/
def Len.add (l : Len) (d : Nat) : Len :=
  if Config.maxMm < l.mm + (l.um + d) / 1000 then ⟨Config.maxMm, 999⟩
  else ⟨l.mm + (l.um + d) / 1000, (l.um + d) % 1000⟩

/-! ## Stations -/

/-- C0. -/
def staC0 : Sta := 4

/-- K0. -/
def staK0 : Sta := 7

/-- Every station, in index order. -/
def allStations : List Sta := [0, 1, 2, 3, 4, 5, 6, 7]

/-- Every port. -/
def allPorts : List Port := [0, 1, 2, 3]

/-- Every twisting station. -/
def allTwists : List Twi := [0, 1, 2, 3, 4]

/-- The kind of a station, fixed by its index (R1). -/
def kindOf (i : Sta) : StationKind :=
  if i.val < 4 then .strander else if i.val = 4 then .closer else if i.val < 7 then .loom else .coiler

/-- The station index of a twisting station. -/
def twiSta (t : Twi) : Sta := ⟨t.val, by omega⟩

/-- The twisting station with a station index, if it is one. -/
def twistOf (i : Sta) : Option Twi := if h : i.val < 5 then some ⟨i.val, h⟩ else none

/-- The strander with a station index, if it is one. -/
def stranderOf (i : Sta) : Option Strander := if h : i.val < 4 then some ⟨i.val, h⟩ else none

/-- The station index of a strander. -/
def strSta (i : Strander) : Sta := ⟨i.val, by omega⟩

/-- The station index of a loom. -/
def loomSta (l : Loom) : Sta := ⟨5 + l.val, by omega⟩

/-- The loom with a station index, if it is one. -/
def loomOf (i : Sta) : Option Loom := if i = 5 then some 0 else if i = 6 then some 1 else none

/-- The station a frame byte names, if it is an index 0 to 7. -/
def staOf (b : Byte) : Option Sta := if h : b.toNat < 8 then some ⟨b.toNat, h⟩ else none

/-- The other arbor. -/
def ArborId.other : ArborId → ArborId
  | .a => .b
  | .b => .a

/-! ## Causes (R2) -/

/-- A cause's place in the order of R176. -/
def Cause.idx : Cause → Nat
  | .laySevere => 0 | .layDrift => 1 | .linkSilent => 2 | .power => 3 | .reset => 4 | .bobbinFull => 5 | .feedOut => 6
  | .lotHold => 7 | .lotEnd => 8 | .cutStop => 9 | .arborBusy => 10 | .coilerHalt => 11

/-- Every cause, in the order of R176. -/
def allCauses : List Cause :=
  [.laySevere, .layDrift, .linkSilent, .power, .reset, .bobbinFull, .feedOut, .lotHold, .lotEnd, .cutStop, .arborBusy,
    .coilerHalt]

/-- The latched causes other than LAY_SEVERE: those FAULT_CLEAR removes in every case (R10). -/
def plainLatched : List Cause := [.layDrift, .linkSilent, .power, .reset]

/-- The conditional causes (R2): those LOT_DETACH removes (R3). -/
def conditional : List Cause := [.bobbinFull, .feedOut, .lotHold, .lotEnd, .cutStop, .arborBusy, .coilerHalt]

/-- The admissible causes of R2's table. -/
def Cause.admissible (c : Cause) (k : StationKind) : Bool :=
  match c, k with
  | .laySevere, .strander | .laySevere, .closer | .layDrift, .strander | .layDrift, .closer => true
  | .laySevere, _ | .layDrift, _ => false
  | .linkSilent, _ | .power, _ | .reset, _ | .lotHold, _ => true
  | .bobbinFull, k => k == .strander
  | .feedOut, k => k == .closer || k == .loom
  | .lotEnd, k => k != .coiler
  | .cutStop, k | .arborBusy, k | .coilerHalt, k => k == .closer

/-- A set of causes as R177 sends it holds `c`. -/
def hasCause (x : BitSet 12) (c : Cause) : Bool := x.has c.idx

/-! ## Word codes of notice details (R176) -/

/-- Station states, from 0x0100. -/
def RunState.word : RunState → BitVec 16
  | .idle => 0x100 | .standby => 0x101 | .runUp => 0x102 | .steady => 0x103 | .runDown => 0x104 | .halted => 0x105
  | .knotting => 0x106 | .rowHold => 0x107 | .active => 0x108

/-- STOPPED_BY_MACHINE, the tenth station state word. -/
def wordStoppedByMachine : BitVec 16 := 0x109

/-- Lot states, from 0x0200; EMPTY is the first. -/
def LotState.word : LotState → BitVec 16
  | .draft => 0x201 | .ready => 0x202 | .active => 0x203 | .held => 0x204 | .complete => 0x205 | .closed => 0x206

/-- EMPTY. -/
def wordEmpty : BitVec 16 := 0x200

/-- Causes, from 0x0300. -/
def Cause.word (c : Cause) : BitVec 16 := BitVec.ofNat 16 (0x300 + c.idx)

/-- Closer positions and loom feeds, from 0x0400. A strander's winding place has no code there: its code is the free
value `Config.windingPlaceCode`. -/
def Place.word : Place → BitVec 16
  | .closer i => BitVec.ofNat 16 (0x400 + i.val)
  | .feed _ .upper => 0x404
  | .feed _ .lower => 0x405
  | .winding i => Config.windingPlaceCode i.val

/-- FEED_RESTORED. -/
def wordFeedRestored : BitVec 16 := 0x406

/-- RUN_UP_LONG, RUN_DOWN_LONG, WINDOW_STALL, OVERWIND, BOBBIN_LOW, WHEEL_STALL, WHEEL_RESTORED, from 0x0500. -/
def wordRunUpLong : BitVec 16 := 0x500
def wordRunDownLong : BitVec 16 := 0x501
def wordWindowStall : BitVec 16 := 0x502
def wordOverwind : BitVec 16 := 0x503
def wordBobbinLow : BitVec 16 := 0x504
def wordWheelStall : BitVec 16 := 0x505
def wordWheelRestored : BitVec 16 := 0x506

/-- PANEL_DONE, PANEL_REJECTED, TAG_PENDING, LIST_FULL, SILENT, LIVE, TAKEN_OVER, from 0x0600. -/
def wordPanelDone : BitVec 16 := 0x600
def wordPanelRejected : BitVec 16 := 0x601
def wordTagPending : BitVec 16 := 0x602
def wordListFull : BitVec 16 := 0x603
def wordSilent : BitVec 16 := 0x604
def wordLive : BitVec 16 := 0x605
def wordTakenOver : BitVec 16 := 0x606

/-- COMMITTED, REWRITTEN, WARM_START, LINE_RESET, from 0x0700 (R192). -/
def wordCommitted : BitVec 16 := 0x700
def wordRewritten : BitVec 16 := 0x701
def wordWarmStart : BitVec 16 := 0x702
def wordLineReset : BitVec 16 := 0x703

/-- A signed detail or field in 16-bit two's complement (R132, R177). -/
def signed16 (v : Int) : BitVec 16 := BitVec.ofInt 16 v

/-! ## Other codes -/

/-- Notice classes: 1 to 19 in the order of R176; here from 0. -/
def NoticeClass.idx : NoticeClass → Fin 19
  | .state => 0 | .fault => 1 | .layWarn => 2 | .phaseWarn => 3 | .feed => 4 | .bobbin => 5 | .row => 6 | .planClamp => 7
  | .knot => 8 | .slip => 9 | .wheel => 10 | .coilPosted => 11 | .coilWait => 12 | .tags => 13 | .list => 14 | .lot => 15
  | .link => 16 | .stored => 17 | .restart => 18

/-- The subject kind code and number of R176. -/
def Subject.code : Subject → Nat × Nat
  | .station i => (0, i.val)
  | .lot n => (1, n)
  | .bobbin n => (2, n)
  | .port p => (3, p.val)

/-- Answer codes (R164). -/
def Code.code : Code → Byte
  | .ok => 0 | .clamped => 1 | .unknownRequest => 2 | .badLength => 3 | .outOfRange => 4 | .notFound => 5 | .notBound => 6
  | .stationHeld => 7 | .wrongState => 8 | .lotFrozen => 9 | .checkMismatch => 10 | .planInvalid => 11 | .wrongLot => 12
  | .tableFull => 13 | .duplicate => 14 | .retryWait => 15 | .noBobbin => 16 | .feedMissing => 17 | .noArbor => 18
  | .lotEnd => 19 | .tagPending => 20 | .outOfSequence => 21 | .rowTaken => 22 | .listEmpty => 23 | .busy => 24

/-- A warning's bit in the warning disable set (R75, R186). -/
def Warning.idx : Warning → Nat
  | .runUpLong => 0 | .runDownLong => 1 | .layDrift => 2 | .windowStall => 3 | .overwind => 4 | .bobbinLow => 5
  | .slip => 6 | .wheelStall => 7 | .planClamped => 8 | .tagsLow => 9 | .coilListHigh => 10

/-- Setting codes (R186) and what each stands for. -/
def RetryWait.code : RetryWait → Nat
  | .off => 0 | .s2 => 1 | .s10 => 2 | .s30 => 3
def RetryWait.ofCode : Nat → Option RetryWait
  | 0 => some .off | 1 => some .s2 | 2 => some .s10 | 3 => some .s30 | _ => none
/-- The wait in ms, absent when OFF (R12). -/
def RetryWait.ms : RetryWait → Option Nat
  | .off => none | .s2 => some 2000 | .s10 => some 10000 | .s30 => some 30000

def Scale.code : Scale → Nat
  | .ms20 => 0 | .ms80 => 1 | .ms320 => 2 | .ms1280 => 3
def Scale.ofCode : Nat → Option Scale
  | 0 => some .ms20 | 1 => some .ms80 | 2 => some .ms320 | 3 => some .ms1280 | _ => none
/-- The scale unit in ms (R71). -/
def Scale.ms : Scale → Nat
  | .ms20 => 20 | .ms80 => 80 | .ms320 => 320 | .ms1280 => 1280

def Silence.code : Silence → Nat
  | .off => 0 | .ms200 => 1 | .ms500 => 2 | .ms1000 => 3 | .ms2000 => 4
def Silence.ofCode : Nat → Option Silence
  | 0 => some .off | 1 => some .ms200 | 2 => some .ms500 | 3 => some .ms1000 | 4 => some .ms2000 | _ => none
/-- The silence period in ms, absent when OFF (R169). -/
def Silence.ms : Silence → Option Nat
  | .off => none | .ms200 => some 200 | .ms500 => some 500 | .ms1000 => some 1000 | .ms2000 => some 2000

def EdgeMode.code : EdgeMode → Nat
  | .off => 0 | .rise => 1 | .fall => 2 | .both => 3
def EdgeMode.ofCode : Nat → Option EdgeMode
  | 0 => some .off | 1 => some .rise | 2 => some .fall | 3 => some .both | _ => none

def Filter.code : Filter → Nat
  | .off => 0 | .us20 => 1 | .us100 => 2 | .us500 => 3
def Filter.ofCode : Nat → Option Filter
  | 0 => some .off | 1 => some .us20 | 2 => some .us100 | 3 => some .us500 | _ => none
/-- The filter time in µs (R16). -/
def Filter.us : Filter → Nat
  | .off => 0 | .us20 => 20 | .us100 => 100 | .us500 => 500

/-- Lay direction codes (R24). -/
def Dir.code : Dir → Nat
  | .s => 0 | .z => 1

/-- Lot kind codes (R32, R165). -/
def Build.kindCode : Build → Nat
  | .strand _ => 1 | .rope _ => 2 | .net _ => 3

/-- Positions in the lists of R1, R82, R107, R127, R138 (R177). -/
def StationKind.code : StationKind → Nat
  | .strander => 0 | .closer => 1 | .loom => 2 | .coiler => 3
def BobbinState.code : BobbinState → Nat
  | .spare => 0 | .winding => 1 | .full => 2 | .mounted => 3 | .runOut => 4 | .part => 5 | .spent => 6
def Source.code : Source → Nat
  | .wheel => 0 | .capstan => 1 | .mixed => 2
def ArborId.code : ArborId → Nat
  | .a => 0 | .b => 1
/-- An arbor's state in the list of R138, FREE first. -/
def Arbor.code : Arbor → Nat
  | .free => 0
  | .busy .winding _ => 1 | .busy .slowing _ => 2 | .busy .cutting _ => 3 | .busy .packing _ => 4 | .busy .posting _ => 5

/-- Directive codes (R174). -/
def Directive.code : Directive → Byte
  | .none => 0 | .next => 1 | .stop => 2 | .hold => 3 | .panelEnd => 4

/-- The arbor a frame byte names: 0 A, 1 B (R165). -/
def arborOf (b : Byte) : Option ArborId := if b = 0 then some .a else if b = 1 then some .b else none

/-- A taper step as a signed number (R102) and as SEGMENT_WRITE sends it (R166). -/
def TaperStep.toInt : TaperStep → Int
  | .inward => -1 | .none => 0 | .outward => 1
def TaperStep.byte : TaperStep → Byte
  | .inward => 0xFF | .none => 0x00 | .outward => 0x01
def TaperStep.ofByte (b : Byte) : Option TaperStep :=
  if b = 0xFF then some .inward else if b = 0x00 then some .none else if b = 0x01 then some .outward else Option.none

/-- The link a SEGMENT_WRITE byte names: a segment, END, or nothing it may name (R104, R166). -/
def linkOf (b : Byte) : Option (Option SegIx) :=
  if h : b.toNat < 64 then some (some ⟨b.toNat, h⟩) else if b = 0xFF then some none else none

/-- The place a frame byte names on a station: 0 to 3 are a to d on C0, 4 and 5 UPPER and LOWER on a loom (R89, R166). -/
def placeOf (i : Sta) (b : Byte) : Option Place :=
  if i = staC0 then (if h : b.toNat < 4 then some (.closer ⟨b.toNat, h⟩) else none)
  else match loomOf i with
    | some l => if b = 4 then some (.feed l .upper) else if b = 5 then some (.feed l .lower) else none
    | none => none

/-! ## Answer payloads (R177) -/

/-- An unsigned number in one, two, three, four or five bytes. -/
def u1 (v : Nat) : List Byte := bytesOf 1 v
def u2 (v : Nat) : List Byte := bytesOf 2 v
def u3 (v : Nat) : List Byte := bytesOf 3 v
def u4 (v : Nat) : List Byte := bytesOf 4 v
def u5 (v : Nat) : List Byte := bytesOf 5 v

/-- A word code or other 16-bit value. -/
def w2 (v : BitVec 16) : List Byte := bytesOf 2 v.toNat

/-- A signed value, in two bytes. -/
def i2 (v : Int) : List Byte := w2 (signed16 v)

/-- A yes-or-no value. -/
def flag (b : Bool) : List Byte := [if b then 1 else 0]

/-- A length: mm, then its carry. -/
def lenBytes (l : Len) : List Byte := u4 l.mm ++ u2 l.um

/-- A field that may be absent: a presence byte, then the field, `blank` in its place when absent. -/
def opt {α : Type} (f : α → List Byte) (blank : List Byte) : Option α → List Byte
  | some v => 1 :: f v
  | none => 0 :: blank

/-- A list of entries: their number in one byte, then the entries. -/
def listBytes {α : Type} (f : α → List Byte) (xs : List α) : List Byte := u1 xs.length ++ xs.flatMap f

/-- `k` zero bytes, as an absent field is sent. -/
def zeros (k : Nat) : List Byte := List.replicate k 0

/-- A row order's four values (R107). -/
def RowOrder.bytes (o : RowOrder) : List Byte := u2 o.panel ++ u3 o.row ++ u1 o.first ++ u1 o.last

/-- The nine bytes of a row answer (R174). -/
def rowAnswerBytes (d : Directive) (o : Option RowOrder) : List Byte :=
  d.code :: opt RowOrder.bytes (zeros 7) o

/-- A notice entry, 11 bytes (R176). -/
def Entry.bytes (e : Entry) : List Byte :=
  u1 (e.cls.idx.val + 1) ++ u1 e.subject.code.1 ++ u2 e.subject.code.2 ++ w2 e.detail ++ u1 e.repeats ++ u4 e.first.toNat

end Sys2Proof.Machine
end

