-- ==== Sys2Proof/Machine/Flags.lean ====
section
/-! DEFINITION. The check values and status flags: the CRC-8 of frames (R160), the CRC-16 of lots (R32), the port
status byte (R163). -/

namespace Sys2Proof.Machine

/-- One bit into a CRC register: the top bit is exclusive-ORed with the input bit, the register shifts left, and the
polynomial is exclusive-ORed in when that exclusive-OR was 1 (R32, R160). -/
def crcBit {n : Nat} (poly reg : BitVec n) (bit : Bool) : BitVec n :=
  if reg.msb != bit then (reg <<< 1) ^^^ poly else reg <<< 1

/-- One byte into a CRC register, most significant bit first. -/
def crcByte {n : Nat} (poly reg : BitVec n) (b : Byte) : BitVec n :=
  [7, 6, 5, 4, 3, 2, 1, 0].foldl (fun r i => crcBit poly r (b.getLsbD i)) reg

/-- The CRC-8 register after one more byte (R160). -/
def crc8Byte (reg b : Byte) : Byte := crcByte 0x35 reg b

/-- The CRC-8 over bytes, from 0xFF (R160). -/
def crc8 (bs : List Byte) : Byte := bs.foldl crc8Byte 0xFF

/-- The CRC-16 over bytes, from 0xFFFF (R32). -/
def crc16 (bs : List Byte) : BitVec 16 := bs.foldl (crcByte 0x1021) 0xFFFF

/-- The port status byte (R163): ATTN, FRAME_ERR, NOTICE_OVF and STORE_BUSY in bits 0 to 3. -/
def statusByte (attn frameErr noticeOvf storeBusy : Bool) : Byte :=
  BitVec.ofNat 8 (attn.toNat + 2 * frameErr.toNat + 4 * noticeOvf.toNat + 8 * storeBusy.toNat)

end Sys2Proof.Machine
end

