-- ==== Sys2Proof/Machine/Ops.lean ====
section
/-! DEFINITION. The operations every block shares: the works clock, access to the records, notices, the movement of
stations by their cause sets, the lot table's counts, and the bobbins on their places. -/

namespace Sys2Proof.Machine

/-! ## Time (00_scope.md, Time) -/

/-- Milliseconds since the start. -/
def State.nowMs (s : State) : Nat := s.now / 1000

/-- The works clock: a 32-bit counter of milliseconds that wraps. -/
def State.worksClock (s : State) : BitVec 32 := BitVec.ofNat 32 s.nowMs

/-- The time elapsed between two works clock readings: their unsigned difference, modulo 2^32 ms. -/
def elapsedMs (sinceMs nowMs : Nat) : Nat := (nowMs - sinceMs) % 2 ^ 32

/-- Time passes to `us`, if it has not come yet: a timer's expiry is not taken before it is due. -/
def State.advanceUs (us : Nat) (s : State) : State := { s with now := max s.now us }

/-- The same, to a works clock reading in ms. -/
def State.advanceMs (ms : Nat) (s : State) : State := s.advanceUs (ms * 1000)

/-- One microsecond passes, while the part has power. -/
def State.tick (s : State) : State := if s.power = .off then s else { s with now := s.now + 1 }

/-! ## Records -/

def State.station (s : State) (i : Sta) : Station := s.stations[i]
def State.setStation (s : State) (i : Sta) (r : Station) : State := { s with stations := s.stations.set i r }
def State.twist (s : State) (t : Twi) : Twist := s.twists[t]
def State.setTwist (s : State) (t : Twi) (r : Twist) : State := { s with twists := s.twists.set t r }
def State.channel (s : State) (c : Chan) : Channel := s.channels[c]
def State.setChannel (s : State) (c : Chan) (r : Channel) : State := { s with channels := s.channels.set c r }
def State.port (s : State) (p : Port) : PortUnit := s.ports[p]
def State.setPort (s : State) (p : Port) (r : PortUnit) : State := { s with ports := s.ports.set p r }
def State.queue (s : State) (p : Port) : List Entry := s.queues[p]
def State.setQueue (s : State) (p : Port) (q : List Entry) : State := { s with queues := s.queues.set p q }
def State.loom (s : State) (l : Loom) : LoomPos := s.looms[l]
def State.setLoom (s : State) (l : Loom) (r : LoomPos) : State := { s with looms := s.looms.set l r }
def State.segment (s : State) (i : SegIx) : Segment := s.segments[i]
def State.setSegment (s : State) (i : SegIx) (r : Segment) : State := { s with segments := s.segments.set i r }
def State.setLot (s : State) (k : Slot) (o : Option Lot) : State := { s with lots := s.lots.set k o }
def State.setBobbins (s : State) (bs : List Bobbin) : State := { s with bobbins := bs }
def State.setMeter (s : State) (m : Meter) : State := { s with meter := m }
def State.setCoiler (s : State) (k : Coiler) : State := { s with coiler := k }
def State.setSettings (s : State) (c : Settings) : State := { s with settings := c }

/-- A station's cause set holds `c`. -/
def State.has (s : State) (i : Sta) (c : Cause) : Bool := hasCause (s.station i).causes c

/-! ## Notices (R179 to R182) -/

/-- The ports a notice is offered to (R180). -/
def State.destinations (s : State) (cls : NoticeClass) (subject : Subject) : BitSet 4 :=
  match subject with
  | .station i =>
    match (s.station i).bound with
    | some p => BitSet.add 0 p.val
    | none => s.settings.routing[cls.idx]
  | _ => s.settings.routing[cls.idx]

/-- An entry of the same class and subject (R182). -/
def Entry.matches (cls : NoticeClass) (subject : Subject) (e : Entry) : Bool :=
  e.cls == cls && e.subject == subject

/-- A queue after a notice is offered to it, absent when it overflows (R182). -/
def offerTo (cls : NoticeClass) (subject : Subject) (detail : BitVec 16) (clock : BitVec 32) (q : List Entry) :
    Option (List Entry) :=
  if q.any (Entry.matches cls subject) then
    some (q.map fun e =>
      if e.matches cls subject then { e with detail := detail, repeats := min Config.repeatMax (e.repeats + 1) } else e)
  else if q.length < Config.queueMax then
    some (q ++ [{ cls := cls, subject := subject, detail := detail, repeats := 1, first := clock }])
  else none

/-- Offers a notice to one port's queue (R182). -/
def offer (p : Port) (cls : NoticeClass) (subject : Subject) (detail : BitVec 16) (s : State) : State :=
  match offerTo cls subject detail s.worksClock (s.queue p) with
  | some q => s.setQueue p q
  | none => s.setPort p { s.port p with noticeOvf := true }

/-- Offers a notice to every port of a set. -/
def offerAll (ports : BitSet 4) (cls : NoticeClass) (subject : Subject) (detail : BitVec 16) (s : State) : State :=
  allPorts.foldl (fun s p => if ports.has p.val then offer p cls subject detail s else s) s

/-- Hands a notice to the notice unit (R179, R180). -/
def raise (cls : NoticeClass) (subject : Subject) (detail : BitVec 16) (s : State) : State :=
  offerAll (s.destinations cls subject) cls subject detail s

/-- Raises a warning's notice, unless the warning is in the warning disable set (R75). -/
def warn (w : Warning) (cls : NoticeClass) (subject : Subject) (detail : BitVec 16) (s : State) : State :=
  if s.settings.disable.has w.idx then s else raise cls subject detail s

/-! ## Changes of a station's state (R1) -/

/-- Changes a station's state and raises its STATE notice with `detail`; no notice when the state is as it was. -/
def changeState (i : Sta) (st : RunState) (detail : BitVec 16) (s : State) : State :=
  if (s.station i).state = st then s
  else raise .state (.station i) detail (s.setStation i { s.station i with state := st })

/-- Changes a station's state, with the new state as detail. -/
def moveTo (i : Sta) (st : RunState) (s : State) : State := changeState i st st.word s

/-- The count of a phase timer at the time `nowMs` (R71). -/
def PhaseTimer.reading (t : PhaseTimer) (nowMs : Nat) : Nat :=
  match t.running with
  | some (start, scale) => min Config.maxPhase ((nowMs - start) / scale)
  | none => t.count

/-- The timer stopped at the value it has reached (R72). -/
def PhaseTimer.stop (t : PhaseTimer) (nowMs : Nat) : PhaseTimer := { count := t.reading nowMs, running := none }

/-- A timer started now, with the scale in force (R71). -/
def PhaseTimer.startAt (nowMs : Nat) (scale : Scale) : PhaseTimer := { count := 0, running := some (nowMs, scale.ms) }

/-- The open window discarded (R51). -/
def Lay.discard (l : Lay) : Lay := { l with isOpen := false, p := 0, dl := 0 }

/-- The entry into RUN_DOWN from RUN_UP or STEADY (R68). -/
def enterRunDown (t : Twi) (s : State) : State :=
  let w := s.twist t
  moveTo (twiSta t) .runDown (s.setTwist t
    { w with
      lay := w.lay.discard
      stillMs := some s.nowMs
      runUp := w.runUp.stop s.nowMs
      runDown := .startAt s.nowMs s.settings.scale })

/-- A running twisting station halted without a run-down, at supply loss or line reset (R8, R9, R69). -/
def haltAtOnce (t : Twi) (s : State) : State :=
  let st := (s.station (twiSta t)).state
  if st = .runUp ∨ st = .steady ∨ st = .runDown then
    let w := s.twist t
    moveTo (twiSta t) .halted (s.setTwist t
      { w with lay := w.lay.discard, runUp := w.runUp.stop s.nowMs, runDown := w.runDown.stop s.nowMs })
  else s

/-! ## Halt causes (R2 to R7) -/

/-- Where an added cause takes a station (R5, R6). -/
def haltMove (i : Sta) (s : State) : State :=
  match (s.station i).state with
  | .idle | .standby | .knotting | .active => moveTo i .halted s
  | .runUp | .steady =>
    match twistOf i with
    | some t => enterRunDown t s
    | none => s
  | .runDown | .halted | .rowHold => s

/-- The station record with a cause added; LAY_SEVERE starts the retry wait (R12). -/
def addCause (i : Sta) (c : Cause) (s : State) : State :=
  let r := s.station i
  s.setStation i
    { r with
      causes := r.causes.add c.idx
      retryUntilMs :=
        if c = .laySevere then s.settings.retryWait.ms.map (s.nowMs + ·) else r.retryUntilMs }

/-- The raise of a cause on one station (R2, R5, R6), without what R4 adds for K0. -/
def raiseOne (i : Sta) (c : Cause) (s : State) : State :=
  if c.admissible (kindOf i) = false ∨ s.has i c then s
  else haltMove i (raise .fault (.station i) c.word (addCause i c s))

/-- K0 has entered HALTED: COILER_HALT is raised on C0 if C0 holds a lot (R4). -/
def coilerHalted (before s : State) : State :=
  if (before.station staK0).state ≠ .halted ∧ (s.station staK0).state = .halted ∧ (s.station staC0).lot.isSome then
    raiseOne staC0 .coilerHalt s
  else s

/-- The raise of a cause on a station (R2, R4 to R6). -/
def raiseCause (i : Sta) (c : Cause) (s : State) : State := coilerHalted s (raiseOne i c s)

/-- A cause taken out of a station's set, with no movement yet; removing LAY_SEVERE makes retry-until absent (R12). -/
def dropCause (i : Sta) (c : Cause) (s : State) : State :=
  if s.has i c then
    let r := s.station i
    s.setStation i
      { r with
        causes := r.causes.del c.idx
        retryUntilMs := if c = .laySevere then none else r.retryUntilMs }
  else s

/-- The state a HALTED station with an empty set goes to (R7). -/
def restState (i : Sta) (s : State) : RunState :=
  if (s.station i).lot.isSome then (if i = staK0 then .active else .standby) else .idle

/-- The movement of R7 for one station, without what R4 adds for K0. -/
def settleOne (i : Sta) (s : State) : State :=
  if (s.station i).causes = 0 ∧ (s.station i).state = .halted then moveTo i (restState i s) s else s

/-- K0 has left HALTED: COILER_HALT is removed from C0 (R4). -/
def coilerReleased (before s : State) : State :=
  if (before.station staK0).state = .halted ∧ (s.station staK0).state ≠ .halted ∧ s.has staC0 .coilerHalt then
    settleOne staC0 (dropCause staC0 .coilerHalt s)
  else s

/-- The movement of R7 when a station's set has become empty. -/
def settle (i : Sta) (s : State) : State := coilerReleased s (settleOne i s)

/-- The removal of a cause and the movement it brings (R3, R7). A cause that is not present changes nothing. -/
def removeCause (i : Sta) (c : Cause) (s : State) : State :=
  if s.has i c then settle i (dropCause i c s) else s

/-- Raises a cause on every station of a set, in index order. -/
def raiseOnAll (set : BitSet 8) (c : Cause) (s : State) : State :=
  allStations.foldl (fun s i => if set.has i.val then raiseCause i c s else s) s

/-- Removes a cause from every station of a set, in index order. -/
def removeFromAll (set : BitSet 8) (c : Cause) (s : State) : State :=
  allStations.foldl (fun s i => if set.has i.val then removeCause i c s else s) s

/-! ## The lot table (R23, R27, R28, R44) -/

/-- Every slot, in order. -/
def allSlots : List Slot := List.finRange 16

/-- The record in a slot holds the lot numbered `n`. -/
def State.slotHolds (s : State) (n : Nat) (k : Slot) : Bool :=
  match s.lots[k] with
  | some l => l.number == n
  | none => false

/-- The slot of a lot. -/
def State.slotOf (s : State) (n : Nat) : Option Slot := allSlots.find? (s.slotHolds n)

/-- The lot numbered `n`, if it is present (R23). -/
def State.lot? (s : State) (n : Nat) : Option Lot := (s.slotOf n).bind fun k => s.lots[k]

/-- The lot a station holds. -/
def State.lotOf (s : State) (i : Sta) : Option Lot := (s.station i).lot.bind s.lot?

/-- Changes the record of a lot. -/
def modLot (n : Nat) (f : Lot → Lot) (s : State) : State :=
  match s.slotOf n with
  | some k => s.setLot k (s.lots[k].map f)
  | none => s

/-- Moves a lot to a state and raises its LOT notice (R28). -/
def moveLot (n : Nat) (st : LotState) (s : State) : State :=
  raise .lot (.lot n) st.word (modLot n (fun l => { l with state := st }) s)

/-- The ordered count of a lot. -/
def Build.ordered : Build → Nat
  | .strand c => c.ordered
  | .rope c => c.ordered
  | .net c => c.ordered

/-- The lot table grants a start (R27). -/
def canStart (n : Nat) (s : State) : Bool :=
  match s.lot? n with
  | some l => l.started < l.build.ordered && l.state != .closed
  | none => false

/-- A start counted, and a start withdrawn (R27). -/
def addStart (n : Nat) (s : State) : State := modLot n (fun l => { l with started := l.started + 1 }) s
def withdrawStart (n : Nat) (s : State) : State := modLot n (fun l => { l with started := l.started - 1 }) s

/-- Length produced grows, saturating (R27). -/
def addProduced (n mm : Nat) (s : State) : State :=
  modLot n (fun l => { l with produced := min Config.maxMm (l.produced + mm) }) s

/-- The completion check of R44. -/
def checkComplete (n : Nat) (s : State) : State :=
  match s.lot? n with
  | some l =>
    if (l.state = .active ∨ l.state = .held) ∧ l.done = l.build.ordered then
      raiseOnAll l.stations .lotEnd (moveLot n .complete s)
    else s
  | none => s

/-- A done increment and the completion check that follows it (R27, R44). -/
def countDone (n : Nat) (s : State) : State :=
  checkComplete n (modLot n (fun l => { l with done := l.done + 1 }) s)

/-- The ROPE lot the pair C0 and K0 holds. -/
def State.rope (s : State) : Option RopeLot :=
  match s.lotOf staC0 with
  | some { build := .rope c, .. } => some c
  | _ => none

/-- The NET lot a loom holds. -/
def State.net (s : State) (l : Loom) : Option NetLot :=
  match s.lotOf (loomSta l) with
  | some { build := .net c, .. } => some c
  | _ => none

/-! ## Bobbins and places (R81, R82) -/

/-- The bobbin with an id. -/
def State.bobbin? (s : State) (id : Nat) : Option Bobbin := s.bobbins.find? (·.id == id)

/-- The bobbin in a place. -/
def State.bobbinAt (s : State) (pl : Place) : Option Bobbin := s.bobbins.find? (·.place == some pl)

/-- Writes a bobbin's record back. -/
def putBobbin (b : Bobbin) (s : State) : State :=
  s.setBobbins (s.bobbins.map fun x => if x.id = b.id then b else x)

/-- The remaining length of a bobbin, µm (R81). -/
def Bobbin.remaining (b : Bobbin) : Nat := b.wound.total - b.drawn.total

/-- The four closer positions, in order. -/
def allPositions : List Pos := [0, 1, 2, 3]

/-- The closer positions a ROPE lot uses (R25). -/
def RopeLot.positions (c : RopeLot) : List Pos := allPositions.take c.strands

/-- The places a lot's station uses (R82): for C0 by its strand count, for a loom both feeds. -/
def usedPlaces (i : Sta) (s : State) : List Place :=
  match loomOf i with
  | some l => [.feed l .upper, .feed l .lower]
  | none =>
    if i = staC0 then
      match s.rope with
      | some c => c.positions.map .closer
      | none => []
    else match stranderOf i with
      | some k => [.winding k]
      | none => []

/-- Every place of C0 or a loom. -/
def placesOf (i : Sta) : List Place :=
  match loomOf i with
  | some l => [.feed l .upper, .feed l .lower]
  | none => if i = staC0 then allPositions.map .closer else []

/-- A place holds a MOUNTED bobbin. -/
def State.mountedAt (s : State) (pl : Place) : Bool :=
  match s.bobbinAt pl with
  | some b => b.state == .mounted
  | none => false

/-- The warning BOBBIN_LOW for a bobbin (R96). -/
def warnLow (id : Nat) (s : State) : State := warn .bobbinLow .bobbin (.bobbin id) wordBobbinLow s

/-- The end of the fill of a strander's bobbin, when the strander is at rest under BOBBIN_FULL with its WINDING bobbin
(R78); otherwise nothing. -/
def endFill (i : Strander) (s : State) : State :=
  if (s.station (strSta i)).state = .halted ∧ s.has (strSta i) .bobbinFull then
    match s.bobbinAt (.winding i) with
    | some b =>
      if b.state = .winding then
        let s := putBobbin { b with state := .full, place := none, fillPoint := none } s
        match b.lot with
        | some n => countDone n (addProduced n b.wound.mm s)
        | none => s
      else s
    | none => s
  else s

/-- A draw of `d` µm charged to a place of a station (R95, R96); with it the shortfall. DESIGN CHOICE: at a run-out that also
passes the low mark BOBBIN_LOW is raised first, before FEED_OUT with its FAULT and STATE notices and the FEED notice
(assumption log 7). -/
def charge (i : Sta) (pl : Place) (d : Nat) (s : State) : State × Nat :=
  match s.bobbinAt pl with
  | some b =>
    if b.state = .mounted then
      let take := min d b.remaining
      let b1 := { b with drawn := Len.ofUm (b.drawn.total + take) }
      let out : Bool := b1.remaining == 0
      let low : Bool := b1.remaining < s.settings.lowMark * 1000 && !b.low
      let s := putBobbin { b1 with low := b.low || low, state := if out then .runOut else .mounted } s
      let s := if low then warnLow b.id s else s
      let s := if out then raise .feed (.station i) pl.word (raiseCause i .feedOut s) else s
      (s, d - take)
    else (s, d)
  | none => (s, d)

/-! ## Arbors (R127, R138) -/

/-- An arbor of the coiling unit. -/
def Coiler.arbor (k : Coiler) : ArborId → Arbor
  | .a => k.a
  | .b => k.b

/-- The coiling unit with one arbor replaced. -/
def Coiler.setArbor (k : Coiler) (id : ArborId) (r : Arbor) : Coiler :=
  match id with
  | .a => { k with a := r }
  | .b => { k with b := r }

def State.arbor (s : State) (id : ArborId) : Arbor := s.coiler.arbor id
def State.setArbor (s : State) (id : ArborId) (r : Arbor) : State := s.setCoiler (s.coiler.setArbor id r)

/-- The phases of a receiving arbor (R127), and those of a coil still winding. -/
def ArborPhase.receives : ArborPhase → Bool
  | .winding | .slowing | .cutting => true
  | .packing | .posting => false
def ArborPhase.winds : ArborPhase → Bool
  | .winding | .slowing => true
  | _ => false

def Arbor.receives : Arbor → Bool
  | .busy ph _ => ph.receives
  | .free => false
def Arbor.winds : Arbor → Bool
  | .busy ph _ => ph.winds
  | .free => false
def Arbor.isFree : Arbor → Bool
  | .free => true
  | .busy _ _ => false
def Arbor.isCutting : Arbor → Bool
  | .busy .cutting _ => true
  | _ => false

/-- The coil of an arbor. -/
def Arbor.coil? : Arbor → Option Coil
  | .busy _ c => some c
  | .free => none

/-- The receiving arbor (R127). -/
def State.receiving (s : State) : Option ArborId :=
  if s.coiler.a.receives then some .a else if s.coiler.b.receives then some .b else none

/-- The arbor that is WINDING or SLOWING. -/
def State.windingArbor (s : State) : Option ArborId :=
  if s.coiler.a.winds then some .a else if s.coiler.b.winds then some .b else none

/-- Changes the coil on an arbor. -/
def modCoil (id : ArborId) (f : Coil → Coil) (s : State) : State :=
  match s.arbor id with
  | .busy ph c => s.setArbor id (.busy ph (f c))
  | .free => s

/-- The receiving coil. -/
def State.receivingCoil (s : State) : Option Coil := s.receiving.bind fun id => (s.arbor id).coil?

/-- The slip window discarded (R131). -/
def discardSlip (s : State) : State := s.setMeter { s.meter with slipOpen := false, winCap := 0, winWheel := 0 }

/-! ## How a request ends (R163, R165) -/

/-- What taking a request gives: the state, the answer code, the answer's payload. -/
abbrev Served := State × Code × List Byte

/-- Answered OK with no payload. -/
def answerOk (s : State) : Served := (s, .ok, [])

/-- Answered OK with a payload. -/
def tell (payload : List Byte) (s : State) : Served := (s, .ok, payload)

/-- Refused with an empty payload, nothing changed by the owner. -/
def refuse (c : Code) (s : State) : Served := (s, c, [])

/-- What happens while the part runs; before supply low and after a start (R190). -/
def whenRunning (f : State → State) (s : State) : State := if s.power = .running then f s else s

/-! ## Output lines -/

/-- The HALT line of a station is released (R8): exactly in the running states, and never without a running part. -/
def haltReleased (s : State) (i : Sta) : Bool :=
  s.power == .running &&
    match (s.station i).state with
    | .runUp | .steady | .knotting | .active => true
    | _ => false

/-- SLOW (R142). -/
def slowLine (s : State) : Bool :=
  s.power == .running && [s.coiler.a, s.coiler.b].any fun r =>
    match r with
    | .busy .slowing _ | .busy .cutting _ => true
    | _ => false

/-- CUT (R144). -/
def cutLine (s : State) : Bool :=
  s.power == .running &&
    ((s.coiler.a.isCutting && s.coiler.b.isFree) || (s.coiler.b.isCutting && s.coiler.a.isFree))

/-- MARK (R145). -/
def markLine (s : State) : Bool := s.power == .running && s.coiler.markMs.isSome

/-- The ATTN line of a port (R184). -/
def attnLine (s : State) (p : Port) : Bool :=
  s.power == .running && !(s.queue p).isEmpty && s.settings.attn.has p.val

end Sys2Proof.Machine
end

