-- ==== Sys2Proof/Machine/Coils.lean ====
section
/-! DEFINITION. The coiling unit (08_coiling_and_packing.md): coil start, growth, the slow, cut and mark points, tags,
posting, the coiler reports, remnants, and the requests TAG_LOAD, COIL_TAKE and COILER_READ. -/

namespace Sys2Proof.Machine

/-! ## The bobbin list of a coil (R98) -/

/-- Adds a bobbin id to a coil's list. -/
def Coil.addBobbin (c : Coil) (id : Nat) : Coil :=
  if c.bobbins.contains id then c
  else if c.bobbins.length < Config.coilBobbinMax then { c with bobbins := c.bobbins ++ [id] }
  else { c with overflow := true }

/-- The ids of the MOUNTED bobbins on the positions the lot uses, in position order. -/
def State.seedIds (s : State) (c : RopeLot) : List Nat :=
  c.positions.filterMap fun i =>
    match s.bobbinAt (.closer i) with
    | some b => if b.state = .mounted then some b.id else none
    | none => none

/-! ## Coil start (R140) -/

/-- A coil record at its start (R139). -/
def Coil.fresh (lot seq : Nat) (source : Source) (clock : BitVec 32) : Coil :=
  { tag := none, lot := lot, seq := seq, length := .zero, overrun := 0, source := source, slip := none, slipFlag := false,
    minF := none, maxF := none, drift := 0, shortfall := .zero, bobbins := [], overflow := false, remnant := false,
    start := clock, cut := none }

/-- A coil of lot `n` is started on an arbor: the start is counted, the record is made, the source chosen by the stall
flag (R127), a slip window opened for a WHEEL coil (R131), the bobbin list seeded (R98). -/
def startCoil (id : ArborId) (n : Nat) (s : State) : State :=
  let s := addStart n s
  let seq := match s.lot? n with | some l => l.started | none => 0
  let c := Coil.fresh n seq (if s.meter.stall then .capstan else .wheel) s.worksClock
  let c := match s.rope with | some r => (s.seedIds r).foldl Coil.addBobbin c | none => c
  let s := s.setArbor id (.busy .winding c)
  if s.meter.stall then s else s.setMeter { s.meter with slipOpen := true, winCap := 0, winWheel := 0 }

/-! ## Growing a coil (R141 to R145) -/

/-- The cut point is taken (R143). -/
def cutPoint (id : ArborId) (s : State) : State :=
  match s.arbor id with
  | .busy _ c =>
    let s := s.setArbor id (.busy .cutting c)
    let s := raiseCause staC0 .cutStop s
    if (s.arbor id.other).isFree then s else raiseCause staC0 .arborBusy s
  | .free => s

/-- A coil whose length goes from `old` to `new` mm passes a mark point of the lot (R145). -/
def passesMark (r : RopeLot) (old new : Nat) : Bool :=
  let step := r.mark * 1000
  let top := min new (r.coilLen * 1000 - 1)
  step != 0 && old < top / step * step

/-- The slow and cut points of a lot, mm (08_coiling_and_packing.md, Growing a coil). -/
def RopeLot.cutMm (r : RopeLot) : Nat := r.coilLen * 1000
def RopeLot.slowMm (r : RopeLot) : Nat := r.cutMm - r.slow

/-- The ROPE lot a coil belongs to. -/
def State.ropeOf (s : State) (n : Nat) : Option RopeLot :=
  match s.lot? n with
  | some { build := .rope r, .. } => some r
  | _ => none

/-- A coil increment of `d` µm for the receiving coil (R141). -/
def coilIncrement (d : Nat) (s : State) : State :=
  match s.receiving with
  | none => s
  | some id =>
    match s.arbor id with
    | .free => s
    | .busy ph c =>
      let grown := { c with length := c.length.add d }
      let s := s.setArbor id (.busy ph grown)
      match ph.winds, s.ropeOf c.lot with
      | true, some r =>
        let s := if passesMark r c.length.mm grown.length.mm then s.setCoiler { s.coiler with markMs := some s.nowMs } else s
        let slows : Bool := ph == .winding && r.slowMm ≤ grown.length.mm
        let s := if slows then s.setArbor id (.busy .slowing grown) else s
        if (slows || ph == .slowing) && r.cutMm ≤ grown.length.mm then cutPoint id s else s
      | _, _ => s

/-- The shortfall of an increment goes to the receiving coil (R95). -/
def coilShortfall (d : Nat) (s : State) : State :=
  match s.receiving with
  | some id => modCoil id (fun c => { c with shortfall := c.shortfall.add d }) s
  | none => s

/-- MARK_PULSE_END (R145). -/
def execMarkPulseEnd (s : State) : Host.Outcome State Fault Refusal :=
  .next (whenRunning (fun s =>
    match s.coiler.markMs with
    | some t =>
      let s := s.advanceMs (t + Config.markMs)
      s.setCoiler { s.coiler with markMs := none }
    | none => s) s)

/-! ## Tags and posting (R148 to R152) -/

/-- The head tag of the free tag list becomes the tag of an arbor's coil, with the check of R150; an empty list leaves
the coil's tag pending. -/
def takeTag (id : ArborId) (s : State) : State :=
  match s.coiler.tags with
  | tag :: rest =>
    let s := modCoil id (fun c => { c with tag := some tag }) (s.setCoiler { s.coiler with tags := rest })
    if rest.length < s.settings.tagsLow then
      warn .tagsLow .tags (.station staK0) (BitVec.ofNat 16 rest.length) s
    else s
  | [] => s

/-- A coil enters PACKING and takes its tag, or waits for one (R148). -/
def tagOnPacking (id : ArborId) (s : State) : State :=
  if s.coiler.tags = [] then raise .coilWait (.station staK0) wordTagPending s else takeTag id s

/-- A coil record is posted to the outbound coil list (R152). -/
def postCoil (c : Coil) (s : State) : State :=
  let s := s.setCoiler { s.coiler with outbound := s.coiler.outbound ++ [c] }
  let s := raise .coilPosted (.lot c.lot) (BitVec.ofNat 16 c.seq) s
  if s.settings.listHigh ≤ s.coiler.outbound.length then
    warn .coilListHigh .list (.station staK0) (BitVec.ofNat 16 s.coiler.outbound.length) s
  else s

/-- An arbor goes to FREE; ARBOR_BUSY leaves C0 if the other arbor is CUTTING (R144). -/
def freeArbor (id : ArborId) (s : State) : State :=
  let s := s.setArbor id .free
  if (s.arbor id.other).isCutting then removeCause staC0 .arborBusy s else s

/-! ## The coiler reports (R146, R147, R149) -/

/-- CUT_DONE, steps 1 to 6 of R147, and C0's move by R7. -/
def cutReport (id : ArborId) (c : Coil) (s : State) : State :=
  let past := match s.ropeOf c.lot with
    | some r => if c.remnant then 0 else c.length.mm - r.cutMm
    | none => 0
  let fixed := { c with length := ⟨c.length.mm, 0⟩, overrun := past, cut := some s.worksClock }
  let s := discardSlip (s.setArbor id (.busy .packing fixed))
  let s := countDone c.lot (addProduced c.lot c.length.mm s)
  let s := dropCause staC0 .arborBusy (dropCause staC0 .cutStop s)
  let s :=
    if canStart c.lot s && (s.arbor id.other).isFree then startCoil id.other c.lot s
    else match s.lot? c.lot with
      | some l => if l.state = .complete ∨ l.state = .closed then raiseCause staC0 .lotEnd s else s
      | none => s
  settle staC0 (tagOnPacking id s)

/-- PACK_DONE (R149). -/
def packReport (id : ArborId) (c : Coil) (s : State) : State :=
  if s.coiler.outbound.length < Config.outboundMax then freeArbor id (postCoil c s)
  else raise .coilWait (.station staK0) wordListFull (s.setArbor id (.busy .posting c))

/-- COILER_REPORT with the checks of R146, in their order. -/
def serveCoilerReport (station arbor report : Byte) (s : State) : Served :=
  match staOf station, arborOf arbor with
  | some i, some id =>
    if i ≠ staK0 ∨ (report ≠ 1 ∧ report ≠ 2) then refuse .outOfRange s
    else if (s.station staK0).lot = none then refuse .wrongState s
    else if report = 1 then
      match s.arbor id with
      | .busy .cutting c => if cutLine s then answerOk (cutReport id c s) else refuse .wrongState s
      | _ => refuse .wrongState s
    else
      match s.arbor id with
      | .busy .packing c => if c.tag = none then refuse .tagPending s else answerOk (packReport id c s)
      | _ => refuse .wrongState s
  | _, _ => refuse .outOfRange s

/-! ## TAG_LOAD (R151) -/

/-- The tags of the coil records on the arbors and in the outbound list. -/
def State.tagsInUse (s : State) : List Nat :=
  s.coiler.tags ++ ([s.coiler.a, s.coiler.b].filterMap Arbor.coil? ++ s.coiler.outbound).filterMap Coil.tag

/-- The arbor that is PACKING with tag pending. -/
def State.tagPending (s : State) : Option ArborId :=
  let waits := fun r => match r with
    | Arbor.busy .packing c => c.tag == none
    | _ => false
  if waits s.coiler.a then some .a else if waits s.coiler.b then some .b else none

/-- TAG_LOAD. -/
def serveTagLoad (count : Byte) (tags : Vector (BitVec 24) 8) (s : State) : Served :=
  let n := count.toNat
  let new := (tags.toList.take n).map BitVec.toNat
  if n < 1 ∨ 8 < n ∨ new.any (fun t => t == 0 || Config.tagTop < t) then refuse .outOfRange s
  else if ¬ new.Nodup then refuse .duplicate s
  else if new.any s.tagsInUse.contains then refuse .duplicate s
  else if Config.tagMax < s.coiler.tags.length + n then refuse .tableFull s
  else
    let s := s.setCoiler { s.coiler with tags := s.coiler.tags ++ new }
    match s.tagPending with
    | some id => answerOk (takeTag id s)
    | none => answerOk s

/-! ## COIL_TAKE (R153, R175) -/

/-- Bits of the flags byte of a coil record (R175). -/
def Coil.flagsByte (c : Coil) : Byte :=
  BitVec.ofNat 8 (c.slipFlag.toNat + 2 * c.remnant.toNat + 4 * c.overflow.toNat + 8 * c.slip.isSome.toNat
    + 16 * c.minF.isSome.toNat)

/-- The 55 bytes of a coil record (R175). -/
def Coil.bytes (c : Coil) : List Byte :=
  u3 (c.tag.getD 0) ++ u2 c.lot ++ u2 c.seq ++ u4 c.length.mm ++ u4 c.overrun ++ u4 c.shortfall.mm ++ u2 c.shortfall.um
    ++ u1 c.source.code ++ [c.flagsByte] ++ i2 (c.slip.getD 0) ++ i2 (c.minF.getD 0) ++ i2 (c.maxF.getD 0) ++ u1 c.drift
    ++ u1 c.bobbins.length ++ ((c.bobbins ++ List.replicate 8 0).take 8).flatMap u2
    ++ u4 c.start.toNat ++ u4 ((c.cut.getD 0).toNat)

/-- The arbor in POSTING with its coil. -/
def State.posting (s : State) : Option (ArborId × Coil) :=
  match s.coiler.a, s.coiler.b with
  | .busy .posting c, _ => some (.a, c)
  | _, .busy .posting c => some (.b, c)
  | _, _ => none

/-- COIL_TAKE. -/
def serveCoilTake (s : State) : Served :=
  match s.coiler.outbound with
  | [] => refuse .listEmpty s
  | c :: rest =>
    let s := s.setCoiler { s.coiler with outbound := rest }
    match s.posting with
    | some (id, waiting) => tell c.bytes (freeArbor id (postCoil waiting s))
    | none => tell c.bytes s

/-! ## LOT_CLOSE on the arbors (R154) -/

/-- Ends an arbor that is WINDING or SLOWING at the close of its lot. -/
def closeArbor (n : Nat) (s : State) : State :=
  match s.windingArbor with
  | some id =>
    match s.arbor id with
    | .busy _ c =>
      if c.lot = n then
        if c.length = .zero then withdrawStart n (discardSlip (s.setArbor id .free))
        else cutPoint id (modCoil id (fun c => { c with remnant := true }) s)
      else s
    | .free => s
  | none => s

/-! ## COILER_READ (R156) -/

/-- A coil record with every field of R139, as R177 encodes it. -/
def Coil.fields (c : Coil) : List Byte :=
  opt u3 (zeros 3) c.tag ++ u2 c.lot ++ u2 c.seq ++ lenBytes c.length ++ u4 c.overrun ++ u1 c.source.code
    ++ opt i2 (zeros 2) c.slip ++ flag c.slipFlag ++ opt i2 (zeros 2) c.minF ++ opt i2 (zeros 2) c.maxF ++ u1 c.drift
    ++ lenBytes c.shortfall ++ listBytes u2 c.bobbins ++ flag c.overflow ++ flag c.remnant ++ u4 c.start.toNat
    ++ opt (fun t => u4 t.toNat) (zeros 4) c.cut

/-- The width of an absent coil record: every field as 0, the bobbin list empty. -/
def Coil.absentWidth : Nat := (Coil.fresh 0 0 .wheel 0).fields.length

/-- An arbor: its state, its coil record, and for a PACKING coil whether its tag is pending. -/
def Arbor.bytes (r : Arbor) : List Byte :=
  u1 r.code ++ opt Coil.fields (zeros Coil.absentWidth) r.coil?
    ++ opt flag (zeros 1) (match r with | .busy .packing c => some (c.tag == none) | _ => none)

/-- The payload of COILER_READ of part 0. -/
def arborsBytes (s : State) : List Byte :=
  s.coiler.a.bytes ++ s.coiler.b.bytes ++ flag (slowLine s) ++ flag (cutLine s) ++ flag (markLine s)
    ++ lenBytes s.coiler.unassigned ++ u4 s.settings.tagsLow ++ u4 s.settings.listHigh

/-- COILER_READ. -/
def serveCoilerRead (part : Byte) (s : State) : Served :=
  if part = 0 then tell (arborsBytes s) s
  else if part = 1 then tell (listBytes u3 s.coiler.tags) s
  else if part = 2 then
    tell (listBytes (fun c : Coil => u3 (c.tag.getD 0) ++ u2 c.lot ++ u2 c.seq) s.coiler.outbound) s
  else refuse .outOfRange s

end Sys2Proof.Machine
end

