-- ==== Sys2Proof/Machine/Bobbins.lean ====
section
/-! DEFINITION. The bobbin table (05_bobbins.md): winding, take-up draw, and the bobbin requests. The draw on a place,
run-out, shortfall and low remnant (R95, R96) and the end of a fill (R78) are shared operations of Ops.lean. -/

namespace Sys2Proof.Machine

/-! ## Winding (R87) -/

/-- A capstan increment of a strander winds onto its WINDING bobbin (R77, R79, R87). -/
def windBobbin (i : Strander) (d : Nat) (s : State) : State :=
  match s.bobbinAt (.winding i) with
  | some b =>
    if b.state = .winding then
      let sum := b.wound.total + d
      let clamped : Bool := b.capacity * 1000 < sum
      let wound : Len := if clamped then ⟨b.capacity, 0⟩ else .ofUm sum
      let s := putBobbin { b with wound := wound, overwind := b.overwind || clamped } s
      let s := if clamped && !b.overwind then warn .overwind .bobbin (.bobbin b.id) wordOverwind s else s
      let full : Bool := match b.fillPoint with | some f => f ≤ wound.mm | none => false
      if full then endFill i (raiseCause (strSta i) .bobbinFull s) else s
    else s
  | none => s

/-! ## Take-up draw (R93) -/

/-- Draw charged to one closer position for an increment of `d` µm at take-up `t` ‰, with the shortfall so far. -/
def drawPosition (d t : Nat) (acc : State × Nat) (i : Pos) : State × Nat :=
  let s := acc.1
  let sum := d * t + s.residues[i]
  let r := charge staC0 (.closer i) (sum / 1000) { s with residues := s.residues.set i (sum % 1000) }
  (r.1, acc.2 + r.2)

/-- A C0 capstan increment in the bobbin table (R93, R95). -/
def takeUpDraw (d : Nat) (s : State) : State :=
  match s.rope with
  | some r =>
    let out := r.positions.foldl (drawPosition d r.takeUp) (s, 0)
    coilShortfall out.2 { out.1 with closerShort := out.1.closerShort.add out.2 }
  | none => s

/-! ## Registering and removing -/

/-- Puts a record into the table, which stands in ascending id order. -/
def insertBobbin (b : Bobbin) (bs : List Bobbin) : List Bobbin :=
  bs.takeWhile (fun x => x.id < b.id) ++ b :: bs.dropWhile (fun x => x.id < b.id)

/-- A record at registration (R84). -/
def Bobbin.fresh (id capacity : Nat) : Bobbin :=
  { id := id, capacity := capacity, state := .spare, lot := none, dir := none, wound := .zero, drawn := .zero,
    fillPoint := none, place := none, overwind := false, low := false }

/-- BOBBIN_REGISTER (R84). -/
def serveBobbinRegister (bobbin : BitVec 16) (capacity : BitVec 32) (s : State) : Served :=
  let id := bobbin.toNat
  if id = 0 then refuse .outOfRange s
  else if (s.bobbin? id).isSome then refuse .duplicate s
  else if Config.bobbinMax ≤ s.bobbins.length then refuse .tableFull s
  else
    let cap := clampNat Config.capacityMin Config.capacityMax capacity.toNat
    (s.setBobbins (insertBobbin (.fresh id cap) s.bobbins), if cap = capacity.toNat then .ok else .clamped, [])

/-- BOBBIN_REMOVE (R85). -/
def serveBobbinRemove (bobbin : BitVec 16) (s : State) : Served :=
  match s.bobbin? bobbin.toNat with
  | none => refuse .notFound s
  | some b =>
    if b.state = .spare then answerOk (s.setBobbins (s.bobbins.filter fun x => x.id ≠ b.id)) else refuse .wrongState s

/-! ## Issue and doff (R86, R88) -/

/-- Lay direction and fill length of a STRAND lot. -/
def Build.strand? : Build → Option StrandLot
  | .strand c => some c
  | _ => none

/-- The issue of a bobbin to a strander for a lot, in one event (R86). -/
def issueBobbin (i : Strander) (b : Bobbin) (l : Lot) (c : StrandLot) (s : State) : State :=
  let s := addStart l.number s
  let s := putBobbin
    { b with
      state := .winding, place := some (.winding i), lot := some l.number, dir := some c.dir
      fillPoint := some (min (c.fill * 1000) b.capacity), overwind := false } s
  removeCause (strSta i) .bobbinFull s

/-- BOBBIN_ISSUE. -/
def serveBobbinIssue (station : Byte) (bobbin : BitVec 16) (s : State) : Served :=
  match (staOf station).bind stranderOf with
  | none => refuse .outOfRange s
  | some i =>
    match s.bobbin? bobbin.toNat with
    | none => refuse .notFound s
    | some b =>
      if b.state ≠ .spare then refuse .wrongState s
      else
        match s.lotOf (strSta i) with
        | none => refuse .wrongState s
        | some l =>
          if (s.bobbinAt (.winding i)).isSome then refuse .wrongState s
          else if canStart l.number s = false then refuse .lotEnd s
          else
            match l.build.strand? with
            | some c => answerOk (issueBobbin i b l c s)
            | none => refuse .wrongState s

/-- A twisting station runs (R38, R88, R168): RUN_UP, STEADY or RUN_DOWN. -/
def RunState.twistRuns : RunState → Bool
  | .runUp | .steady | .runDown => true
  | _ => false

/-- The WINDING bobbin leaves a strander's winding place at a doff (R88). -/
def doffBobbin (b : Bobbin) (s : State) : State :=
  if 0 < b.wound.mm then
    let s := putBobbin { b with state := .full, place := none, fillPoint := none } s
    match b.lot with
    | some n => countDone n (addProduced n b.wound.mm s)
    | none => s
  else
    let s := putBobbin
      { b with state := .spare, place := none, fillPoint := none, lot := none, dir := none, wound := .zero } s
    match b.lot with
    | some n => withdrawStart n s
    | none => s

/-- BOBBIN_DOFF. -/
def serveBobbinDoff (station : Byte) (s : State) : Served :=
  match (staOf station).bind stranderOf with
  | none => refuse .outOfRange s
  | some i =>
    if (s.station (strSta i)).state.twistRuns then refuse .wrongState s
    else
      match s.bobbinAt (.winding i) with
      | some b => if b.state = .winding then answerOk (doffBobbin b s) else refuse .noBobbin s
      | none => refuse .noBobbin s

/-! ## Mount and dismount (R89 to R91) -/

/-- The strand lot of a ROPE or NET lot (0 for none). -/
def Build.strandLot : Build → Nat
  | .strand _ => 0
  | .rope c => c.strandLot
  | .net c => c.strandLot

/-- The lay direction a mount on C0 must differ from. -/
def Build.ropeDir : Build → Option Dir
  | .rope c => some c.dir
  | _ => none

/-- The coil on a WINDING or SLOWING arbor takes a mounted bobbin's id (R90 step 4, R98). -/
def listOnCoil (i : Sta) (id : Nat) (s : State) : State :=
  if i = staC0 then
    match s.windingArbor with
    | some arbor => modCoil arbor (fun c => c.addBobbin id) s
    | none => s
  else s

/-- Every place the station's lot uses holds a MOUNTED bobbin (R3, R66). -/
def feedsMounted (i : Sta) (s : State) : Bool := (usedPlaces i s).all s.mountedAt

/-- FEED_OUT is removed with its FEED_RESTORED notice, and the station moves by R7 (R90 step 5). -/
def restoreFeed (i : Sta) (s : State) : State :=
  if s.has i .feedOut ∧ feedsMounted i s then
    settle i (raise .feed (.station i) wordFeedRestored (dropCause i .feedOut s))
  else s

/-- A mount, in the order of R90. -/
def mountBobbin (i : Sta) (pl : Place) (b : Bobbin) (s : State) : State :=
  let low : Bool := b.remaining < s.settings.lowMark * 1000
  let s := putBobbin { b with state := .mounted, place := some pl, low := low } s
  let s := match pl with
    | .closer k => { s with residues := s.residues.set k 0 }
    | _ => s
  let s := if low then warnLow b.id s else s
  restoreFeed i (listOnCoil i b.id s)

/-- BOBBIN_MOUNT. -/
def serveBobbinMount (station place : Byte) (bobbin : BitVec 16) (s : State) : Served :=
  match staOf station with
  | none => refuse .outOfRange s
  | some i =>
    match placeOf i place with
    | none => refuse .outOfRange s
    | some pl =>
      match s.bobbin? bobbin.toNat with
      | none => refuse .notFound s
      | some b =>
        match s.lotOf i with
        | none => refuse .wrongState s
        | some l =>
          if pl ∉ usedPlaces i s then refuse .outOfRange s
          else if b.state ≠ .full ∧ b.state ≠ .part then refuse .wrongState s
          else if (s.bobbinAt pl).isSome then refuse .wrongState s
          else if b.lot ≠ some l.build.strandLot then refuse .wrongLot s
          else if i = staC0 ∧ b.dir = l.build.ropeDir then refuse .wrongLot s
          else answerOk (mountBobbin i pl b s)

/-- A station runs (R91, R168): a twisting station in RUN_UP, STEADY or RUN_DOWN; a loom in KNOTTING or ROW_HOLD or
with an open row in any state; K0 never. -/
def stationRuns (i : Sta) (s : State) : Bool :=
  match loomOf i with
  | some l => (s.station i).state == .knotting || (s.station i).state == .rowHold || (s.loom l).openRow
  | none => if i = staK0 then false else (s.station i).state.twistRuns

/-- BOBBIN_DISMOUNT (R91). -/
def serveBobbinDismount (station place : Byte) (s : State) : Served :=
  match staOf station with
  | none => refuse .outOfRange s
  | some i =>
    match placeOf i place with
    | none => refuse .outOfRange s
    | some pl =>
      match s.bobbinAt pl with
      | none => refuse .wrongState s
      | some b =>
        if stationRuns i s then refuse .wrongState s
        else answerOk (putBobbin
          { b with place := none, state := if b.state = .runOut then .spent else .part } s)

/-- BOBBIN_RETURN (R92). -/
def serveBobbinReturn (bobbin : BitVec 16) (s : State) : Served :=
  match s.bobbin? bobbin.toNat with
  | none => refuse .notFound s
  | some b =>
    if b.state = .part ∨ b.state = .spent then
      answerOk (putBobbin
        { b with state := .spare, lot := none, dir := none, wound := .zero, drawn := .zero, low := false } s)
    else refuse .wrongState s

/-! ## Reading (R99, R100) -/

/-- A bobbin record as R99 returns it. -/
def Bobbin.bytes (b : Bobbin) : List Byte :=
  u2 b.id ++ u4 b.capacity ++ u1 b.state.code ++ opt u2 (zeros 2) b.lot ++ opt (fun d => u1 (Dir.code d)) (zeros 1) b.dir
    ++ lenBytes b.wound ++ lenBytes b.drawn ++ u5 b.remaining ++ opt u4 (zeros 4) b.fillPoint
    ++ opt (fun pl => w2 (Place.word pl)) (zeros 2) b.place ++ flag b.overwind ++ flag b.low

/-- BOBBIN_READ. -/
def serveBobbinRead (bobbin : BitVec 16) (s : State) : Served :=
  if bobbin = 0 then tell (listBytes (fun b : Bobbin => u2 b.id ++ u1 b.state.code) s.bobbins) s
  else
    match s.bobbin? bobbin.toNat with
    | some b => tell b.bytes s
    | none => refuse .notFound s

/-- One place of FEED_READ: the bobbin it holds or none, its state and remaining length, and C0's residue. -/
def placeBytes (s : State) (pl : Place) : List Byte :=
  let b := s.bobbinAt pl
  opt (fun b : Bobbin => u2 b.id) (zeros 2) b ++ opt (fun b : Bobbin => u1 b.state.code) (zeros 1) b
    ++ opt (fun b : Bobbin => u5 b.remaining) (zeros 5) b
    ++ opt u2 (zeros 2) (match pl with | .closer k => some s.residues[k] | _ => none)

/-- The shortfall tally of C0 or a loom (R95). -/
def shortfallOf (i : Sta) (s : State) : Len :=
  match loomOf i with
  | some l => (s.loom l).shortfall
  | none => s.closerShort

/-- The payload of FEED_READ. -/
def feedBytes (i : Sta) (s : State) : List Byte := (placesOf i).flatMap (placeBytes s) ++ lenBytes (shortfallOf i s)

/-- FEED_READ. -/
def serveFeedRead (station : Byte) (s : State) : Served :=
  match staOf station with
  | none => refuse .outOfRange s
  | some i => if placesOf i = [] then refuse .outOfRange s else tell (feedBytes i s) s

end Sys2Proof.Machine
end

