-- ==== Sys2Proof/Machine/Looms.lean ====
section
/-! DEFINITION. Knotting (06_knotting_mesh_plans_and_the_row_exchange.md): the plan memory and its freezing, panels,
running and stopping a loom, the row exchange, knot faults, and the loom's attach and detach. -/

namespace Sys2Proof.Machine

/-! ## The plan memory (R102 to R105) -/

/-- The segments reached from `i` along next, each at most `fuel` steps away; an empty record's next is not read. -/
def reach (segs : SegIx → Segment) : Nat → SegIx → List SegIx
  | 0, _ => []
  | fuel + 1, i =>
    i :: if (segs i).rows = 0 then []
      else match (segs i).next with
        | some j => reach segs fuel j
        | none => []

/-- The head segment of a lot that freezes its chain: a NET lot in READY, ACTIVE, HELD or COMPLETE (R103). -/
def Lot.freezingHead (l : Lot) : Option SegIx :=
  match l.build with
  | .net c => if l.state = .draft ∨ l.state = .closed then none else some c.head
  | _ => none

/-- A segment is frozen (R103). -/
def frozen (i : SegIx) (s : State) : Bool :=
  allSlots.any fun k =>
    match (s.lots[k]).bind Lot.freezingHead with
    | some head => (reach s.segment 64 head).contains i
    | none => false

/-- SEGMENT_WRITE (R104). -/
def serveSegmentWrite (index : Byte) (rows : BitVec 16) (left right stepRows next : Byte) (s : State) : Served :=
  if h : index.toNat < 64 then
    let i : SegIx := ⟨index.toNat, h⟩
    match TaperStep.ofByte left, TaperStep.ofByte right, linkOf next with
    | some l, some r, some n =>
      if frozen i s then refuse .lotFrozen s
      else
        let rows' := clampNat 0 4095 rows.toNat
        let step' := clampNat 1 63 stepRows.toNat
        (s.setSegment i { rows := rows', left := l, right := r, stepRows := step', next := n },
          if rows' = rows.toNat ∧ step' = stepRows.toNat then .ok else .clamped, [])
    | _, _, _ => refuse .outOfRange s
  else refuse .outOfRange s

/-- The payload of SEGMENT_READ. -/
def segmentBytes (i : SegIx) (s : State) : List Byte :=
  let g := s.segment i
  u2 g.rows ++ i2 g.left.toInt ++ i2 g.right.toInt ++ u1 g.stepRows
    ++ u1 (match g.next with | some j => j.val | none => 0xFF) ++ flag (frozen i s)

/-- SEGMENT_READ (R105). -/
def serveSegmentRead (index : Byte) (s : State) : Served :=
  if h : index.toNat < 64 then tell (segmentBytes ⟨index.toNat, h⟩ s) s else refuse .outOfRange s

/-! ## Positions and panels (R107, R109, R110, R121) -/

/-- The needle count of a loom (R106). -/
def State.needles (s : State) (l : Loom) : Nat := s.settings.needles[l]

/-- The lot number a loom holds, 0 when it holds none. -/
def State.loomLot (s : State) (l : Loom) : Nat := ((s.station (loomSta l)).lot).getD 0

/-- A loom's current row order (R107). -/
def LoomPos.order (q : LoomPos) : RowOrder := { panel := q.panel, row := q.row, first := q.first, last := q.last }

/-- Changes a loom's position record. -/
def modLoom (l : Loom) (f : LoomPos → LoomPos) (s : State) : State := s.setLoom l (f (s.loom l))

/-- The position at the first row of a panel of lot `c` on a loom of `needles` needles (R109, R124). -/
def LoomPos.atHead (q : LoomPos) (c : NetLot) (needles : Nat) : LoomPos :=
  { q with
    endPending := false
    segment := c.head
    rowIn := 1
    row := 1
    first := clampNat 0 (needles - 1) c.first
    last := clampNat 0 (needles - 1) c.last
    clampNoted := false }

/-- A counted panel start (R109). -/
def startPanel (l : Loom) (c : NetLot) (s : State) : State :=
  modLoom l (fun q => { q.atHead c (s.needles l) with inPanel := true, panel := min 65535 (q.panel + 1) })
    (addStart (s.loomLot l) s)

/-- The current row is opened. -/
def openRow (l : Loom) (s : State) : State := modLoom l (fun q => { q with openRow := true }) s

/-- A panel ends done: the record, the ROW notice, panels done with the completion check (R110). -/
def finishPanel (l : Loom) (s : State) : State :=
  countDone (s.loomLot l) (raise .row (.station (loomSta l)) wordPanelDone
    (modLoom l (fun q => { q with inPanel := false, endPending := false }) s))

/-- The start attempt after a panel end (R110): in KNOTTING with an empty set a panel is started and its first row
opened, or the loom goes to STANDBY. With it, whether a panel started. -/
def attemptPanel (l : Loom) (s : State) : State × Bool :=
  let i := loomSta l
  if (s.station i).state = .knotting ∧ (s.station i).causes = 0 then
    match canStart (s.loomLot l) s, s.net l with
    | true, some c => (openRow l (startPanel l c s), true)
    | _, _ => (moveTo i .standby s, false)
  else (s, false)

/-- The panel in progress ends rejected (R121, R124). -/
def rejectPanel (l : Loom) (s : State) : State :=
  let n := s.loomLot l
  raise .row (.station (loomSta l)) wordPanelRejected
    (modLot n (fun t => { t with rejected := min 255 (t.rejected + 1) })
      (withdrawStart n (modLoom l (fun q => { q with inPanel := false, endPending := false }) s)))

/-! ## Running and stopping (R111, R112) -/

/-- STATION_RUN naming a loom. -/
def runLoom (l : Loom) (s : State) : Served :=
  let i := loomSta l
  if (s.station i).state ≠ .standby then refuse .wrongState s
  else if feedsMounted i s = false then refuse .feedMissing s
  else if (s.loom l).inPanel then
    let s := moveTo i .knotting (openRow l s)
    tell (s.loom l).order.bytes s
  else
    match canStart (s.loomLot l) s, s.net l with
    | true, some c =>
      let s := moveTo i .knotting (openRow l (startPanel l c s))
      tell (s.loom l).order.bytes s
    | _, _ => refuse .lotEnd s

/-- STATION_STOP naming a loom. -/
def stopLoom (l : Loom) (s : State) : Served :=
  let i := loomSta l
  match (s.station i).state with
  | .knotting => answerOk (moveTo i .standby s)
  | .idle => refuse .wrongState s
  | _ => answerOk s

/-! ## The row exchange (R113 to R118) -/

/-- The needles 0 to 255. -/
def allNeedles : List Nat := List.range 256

/-- A needle's knot was sensed: its bit of the knot map, below the needle count (R114, R174). -/
def sensed (knots : BitVec 256) (needles n : Nat) : Bool := n < needles && knots.getMsbD n

/-- A needle is expected in the row. -/
def LoomPos.expects (q : LoomPos) (n : Nat) : Bool := q.first ≤ n && n ≤ q.last

/-- Missed and stray needles of a row, in order (R114). -/
def missedNeedles (q : LoomPos) (knots : BitVec 256) (needles : Nat) : List Nat :=
  allNeedles.filter fun n => q.expects n && !sensed knots needles n
def strayNeedles (q : LoomPos) (knots : BitVec 256) (needles : Nat) : List Nat :=
  allNeedles.filter fun n => sensed knots needles n && !q.expects n

/-- The fault count of a row (R114). -/
def faultCount (q : LoomPos) (knots : BitVec 256) (needles : Nat) : Nat :=
  (missedNeedles q knots needles).length + (strayNeedles q knots needles).length

/-- The knot comparison, first step of a taken report (R114). -/
def compareKnots (l : Loom) (knots : BitVec 256) (s : State) : State :=
  let q := s.loom l
  let missed := missedNeedles q knots (s.needles l)
  let stray := strayNeedles q knots (s.needles l)
  let faulty := allNeedles.filter fun n => missed.contains n || stray.contains n
  match faulty with
  | [] => s
  | n :: _ =>
    let e : KnotFault := { panel := q.panel, row := q.row, missed := missed.length, stray := stray.length, needle := n }
    let s := modLoom l (fun q =>
      if q.faults.length < Config.faultMax then { q with faults := q.faults ++ [e] } else { q with overflow := true }) s
    raise .knot (.station (loomSta l)) (BitVec.ofNat 16 (missed.length + stray.length)) s

/-- The twine draw of a row, mm (R115). -/
def rowDraw (q : LoomPos) (c : NetLot) : Nat := (q.last - q.first + 1) * (c.mesh + c.knot)

/-- One feed's charge of a row, mm, with its shortfall into the loom's tally (R94, R95). -/
def chargeFeed (l : Loom) (f : Feed) (mm : Nat) (s : State) : State :=
  let r := charge (loomSta l) (.feed l f) (mm * 1000) s
  modLoom l (fun q => { q with shortfall := q.shortfall.add r.2 }) r.1

/-- The twine charge, second step (R115). -/
def chargeTwine (l : Loom) (c : NetLot) (s : State) : State :=
  let draw := rowDraw (s.loom l) c
  let s := chargeFeed l .lower (draw / 2) (chargeFeed l .upper ((draw + 1) / 2) s)
  modLot (s.loomLot l) (fun t => { t with rows := min Config.maxMm (t.rows + 1) }) s

/-- The range after a taper step, and whether the step clamped or was refused (R116). -/
def taperRange (q : LoomPos) (g : Segment) (needles : Nat) : Nat × Nat × Bool :=
  let first : Int := q.first - g.left.toInt
  let last : Int := q.last + g.right.toInt
  let first' := clampInt 0 ((needles : Int) - 1) first
  let last' := clampInt 0 ((needles : Int) - 1) last
  if last' < first' then (q.first, q.last, true)
  else (first'.toNat, last'.toNat, first' != first || last' != last)

/-- The taper, third step (R116). -/
def taper (l : Loom) (s : State) : State :=
  let q := s.loom l
  let g := s.segment q.segment
  if q.rowIn % g.stepRows = 0 then
    let r := taperRange q g (s.needles l)
    let first := r.1
    let last := r.2.1
    let clamped := r.2.2
    let s := modLoom l (fun q => { q with first := first, last := last, clampNoted := q.clampNoted || clamped }) s
    if clamped && !q.clampNoted then
      warn .planClamped .planClamp (.station (loomSta l)) (BitVec.ofNat 16 q.segment.val) s
    else s
  else s

/-- The advance along the chain, absent when the chain has ended (R117). DESIGN CHOICE: a current segment emptied under a
CLOSED lot while its row is open is read as it stands, its step rows, steps and next among them, although R102 has an empty
record's other fields not read (assumption log 18). -/
def LoomPos.advance (q : LoomPos) (segs : SegIx → Segment) : Option LoomPos :=
  if q.rowIn < (segs q.segment).rows then some { q with rowIn := q.rowIn + 1, row := q.row + 1 }
  else
    match (segs q.segment).next with
    | some j =>
      if 0 < (segs j).rows then some { q with segment := j, rowIn := 1, row := q.row + 1, clampNoted := false } else none
    | none => none

/-- The end of a taken report: the answer is kept and given (R118). -/
def rowAnswer (l : Loom) (taken : Nat) (d : Directive) (o : Option RowOrder) (s : State) : Served :=
  tell (rowAnswerBytes d o) (modLoom l (fun q => { q with lastTaken := some taken, lastAnswer := some (d, o) }) s)

/-- The directive of a report that calls for no hold and ended no panel (R118): STOP, or NEXT with the row opened. -/
def stopOrNext (l : Loom) (s : State) : State × Directive × Option RowOrder :=
  let i := loomSta l
  if (s.station i).state ≠ .knotting ∨ (s.station i).causes ≠ 0 then (s, .stop, none)
  else (openRow l s, .next, some (s.loom l).order)

/-- A taken report (R114 to R118), for the NET lot the loom holds. DESIGN CHOICE: the notices come in the order of the steps,
so that FEED_OUT's FAULT and STATE notices of the second step come before the LOT notice of a lot that the panel's end in
the fourth step completes, where R28 has a request's LOT notice before its station notices (assumption log 7). -/
def takeReport (l : Loom) (c : NetLot) (knots : BitVec 256) (s : State) : Served :=
  let i := loomSta l
  let taken := (s.loom l).row
  let hold : Bool := c.missed < faultCount (s.loom l) knots (s.needles l)
  let s := modLoom l (fun q => { q with openRow := false }) s
  let s := taper l (chargeTwine l c (compareKnots l knots s))
  match (s.loom l).advance s.segment with
  | some q =>
    let s := s.setLoom l q
    if hold then rowAnswer l taken .hold none (moveTo i .rowHold s)
    else
      let r := stopOrNext l s
      rowAnswer l taken r.2.1 r.2.2 r.1
  | none =>
    if hold then
      rowAnswer l taken .hold none (moveTo i .rowHold (modLoom l (fun q => { q with endPending := true }) s))
    else
      let r := attemptPanel l (finishPanel l s)
      rowAnswer l taken .panelEnd (if r.2 then some (r.1.loom l).order else none) r.1

/-- ROW_REPORT (R113). -/
def serveRowReport (station : Byte) (row : BitVec 24) (knots : BitVec 256) (s : State) : Served :=
  match (staOf station).bind loomOf with
  | none => refuse .outOfRange s
  | some l =>
    let q := s.loom l
    match s.net l with
    | none => refuse .wrongState s
    | some c =>
      if q.openRow then
        if row.toNat = q.row then takeReport l c knots s
        else (s, .outOfSequence, rowAnswerBytes .none (some q.order))
      else
        match q.lastTaken, q.lastAnswer with
        | some n, some (d, o) =>
          if row.toNat = n then (s, .rowTaken, rowAnswerBytes d o)
          else (s, .outOfSequence, rowAnswerBytes .none none)
        | _, _ => (s, .outOfSequence, rowAnswerBytes .none none)

/-! ## ROW_REPLY (R120, R121) -/

/-- The answer of a reply replaces the last answer. -/
def replyAnswer (l : Loom) (d : Directive) (o : Option RowOrder) (s : State) : Served :=
  tell (rowAnswerBytes d o) (modLoom l (fun q => { q with lastAnswer := some (d, o) }) s)

/-- ACCEPT (R120). -/
def acceptRow (l : Loom) (s : State) : Served :=
  let i := loomSta l
  let ended := (s.loom l).endPending
  let s := if ended then finishPanel l s else s
  if (s.station i).causes = 0 then
    let s := moveTo i .knotting s
    if ended then
      let r := attemptPanel l s
      replyAnswer l .panelEnd (if r.2 then some (r.1.loom l).order else none) r.1
    else
      let s := openRow l s
      replyAnswer l .next (some (s.loom l).order) s
  else replyAnswer l (if ended then .panelEnd else .stop) none (moveTo i .halted s)

/-- ABANDON (R121). -/
def abandonRow (l : Loom) (s : State) : Served :=
  let i := loomSta l
  let s := rejectPanel l s
  replyAnswer l .stop none (moveTo i (if (s.station i).causes = 0 then .standby else .halted) s)

/-- ROW_REPLY with value 1 ACCEPT, 2 ABANDON. -/
def serveRowReply (station value : Byte) (s : State) : Served :=
  match (staOf station).bind loomOf with
  | none => refuse .outOfRange s
  | some l =>
    if value ≠ 1 ∧ value ≠ 2 then refuse .outOfRange s
    else if (s.station (loomSta l)).state ≠ .rowHold then refuse .wrongState s
    else if value = 1 then acceptRow l s
    else abandonRow l s

/-! ## Knot faults and LOOM_READ (R122, R123) -/

/-- A knot fault entry (R114, R177). DEDUCED: the stray count, for which no range is stated, is sent in two bytes like the
missed count of 0 to 256 (assumption log 9). -/
def KnotFault.bytes (e : KnotFault) : List Byte := u2 e.panel ++ u3 e.row ++ u2 e.missed ++ u2 e.stray ++ u1 e.needle

/-- KNOT_FAULT_READ. -/
def serveKnotFaultRead (station count : Byte) (s : State) : Served :=
  match (staOf station).bind loomOf with
  | none => refuse .outOfRange s
  | some l =>
    if count.toNat < 1 ∨ 4 < count.toNat then refuse .outOfRange s
    else
      let q := s.loom l
      tell (listBytes KnotFault.bytes (q.faults.take count.toNat) ++ flag q.overflow)
        (s.setLoom l { q with faults := q.faults.drop count.toNat, overflow := false })

/-- The payload of LOOM_READ. -/
def LoomPos.bytes (q : LoomPos) (needles : Nat) : List Byte :=
  u4 needles ++ flag q.inPanel ++ flag q.endPending ++ u1 q.segment.val ++ u2 q.rowIn ++ u3 q.row ++ u1 q.first ++ u1 q.last
    ++ flag q.clampNoted ++ u2 q.panel ++ flag q.openRow ++ opt u3 (zeros 3) q.lastTaken
    ++ opt (fun a : Directive × Option RowOrder => rowAnswerBytes a.1 a.2) (zeros 9) q.lastAnswer
    ++ lenBytes q.shortfall ++ u1 q.faults.length ++ flag q.overflow

/-- LOOM_READ. -/
def serveLoomRead (station : Byte) (s : State) : Served :=
  match (staOf station).bind loomOf with
  | none => refuse .outOfRange s
  | some l => tell ((s.loom l).bytes (s.needles l)) s

/-! ## Attach and detach at the loom (R124) -/

/-- A loom's position record at LOT_ATTACH. -/
def attachLoom (l : Loom) (c : NetLot) (s : State) : State :=
  modLoom l (fun q =>
    { q.atHead c (s.needles l) with
      inPanel := false, openRow := false, lastTaken := none, lastAnswer := none, panel := 0, faults := [],
      overflow := false, shortfall := .zero }) s

/-- A panel in progress at LOT_DETACH ends rejected. -/
def detachLoom (l : Loom) (s : State) : State := if (s.loom l).inPanel then rejectPanel l s else s

end Sys2Proof.Machine
end

