-- ==== Sys2Proof/Machine/Metering.lean ====
section
/-! DEFINITION. Rope metering and slip (07_rope_metering_and_slip.md): where each increment goes, slip windows, the
stall watch, the unassigned-rope tally, METER_READ. -/

namespace Sys2Proof.Machine

/-- Rope that no coil receives (R130). -/
def addUnassigned (d : Nat) (s : State) : State :=
  s.setCoiler { s.coiler with unassigned := s.coiler.unassigned.add d }

/-- C0 and K0 hold a ROPE lot (R126). -/
def State.pairHolds (s : State) : Bool := s.rope.isSome && (s.station staK0).lot.isSome

/-! ## Slip (R131, R132) -/

/-- The slip of a window, ‰ (R131). -/
def slipOf (cap wheel : Nat) : Int := clampInt (-999) 999 (Int.tdiv (1000 * ((cap : Int) - wheel)) cap)

/-- The greatest slip after a close (R132). -/
def greaterSlip (old : Option Int) (new : Int) : Int :=
  match old with
  | some o => if o.natAbs < new.natAbs then new else o
  | none => new

/-- The close of the slip window (R131, R132). -/
def closeSlip (s : State) : State :=
  let slip := slipOf s.meter.winCap s.meter.winWheel
  let s := s.setMeter { s.meter with lastSlip := some slip }
  match s.receiving, s.receivingCoil with
  | some id, some c =>
    let beyond : Bool := match s.ropeOf c.lot with | some r => r.slip < slip.natAbs | none => false
    let s := modCoil id (fun c => { c with slip := some (greaterSlip c.slip slip), slipFlag := c.slipFlag || beyond }) s
    let s := if beyond then warn .slip .slip (.station staK0) (signed16 slip) s else s
    if c.source = Source.wheel then s.setMeter { s.meter with slipOpen := true, winCap := 0, winWheel := 0 } else discardSlip s
  | _, _ => discardSlip s

/-! ## The stall watch (R133, R134) -/

/-- The stall is taken (R133). -/
def takeStall (s : State) : State :=
  let s := s.setMeter { s.meter with stall := true }
  let s := warn .wheelStall .wheel (.station staK0) wordWheelStall s
  match s.receiving, s.receivingCoil with
  | some id, some c =>
    if c.source = Source.wheel then
      discardSlip (modCoil id (fun c => { c with source := if c.length = .zero then .capstan else .mixed }) s)
    else s
  | _, _ => s

/-- The recovery is taken (R134). -/
def takeRecovery (s : State) : State :=
  warn .wheelStall .wheel (.station staK0) wordWheelRestored (s.setMeter { s.meter with stall := false })

/-! ## Increments (R128, R129) -/

/-- A C0 capstan increment in the metering unit (R128). -/
def meterCap (d : Nat) (s : State) : State :=
  if s.pairHolds then
    let s := match s.receivingCoil with
      | some c => if c.source = Source.wheel then s else coilIncrement d s
      | none => if s.meter.stall then addUnassigned d s else s
    let dist := min Config.stallUm (s.meter.stallDist + d)
    let s := s.setMeter { s.meter with stallDist := dist }
    let s := if dist = Config.stallUm ∧ s.meter.stall = false then takeStall s else s
    if s.meter.slipOpen then
      let s := s.setMeter { s.meter with winCap := s.meter.winCap + d }
      if Config.slipUm ≤ s.meter.winCap then closeSlip s else s
    else s
  else s

/-- A K0 wheel increment in the metering unit (R129). -/
def meterWheel (d : Nat) (s : State) : State :=
  if s.pairHolds then
    let s := s.setMeter { s.meter with stallDist := 0 }
    let s := if s.meter.stall then takeRecovery s else s
    let s := match s.receivingCoil with
      | some c => if c.source = Source.wheel then coilIncrement d s else s
      | none => addUnassigned d s
    if s.meter.slipOpen then s.setMeter { s.meter with winWheel := min Config.maxMm (s.meter.winWheel + d) } else s
  else s

/-! ## METER_READ (R136) -/

/-- The payload of METER_READ. -/
def meterBytes (s : State) : List Byte :=
  let c := s.receivingCoil
  flag s.meter.stall ++ u3 s.meter.stallDist ++ flag s.meter.slipOpen ++ u3 s.meter.winCap ++ u4 s.meter.winWheel
    ++ opt i2 (zeros 2) s.meter.lastSlip ++ opt (fun id => u1 (ArborId.code id)) (zeros 1) s.receiving
    ++ opt (fun c : Coil => u1 c.source.code) (zeros 1) c ++ opt (fun c : Coil => lenBytes c.length) (zeros 6) c
    ++ opt i2 (zeros 2) (c.bind Coil.slip) ++ opt (fun c : Coil => flag c.slipFlag) (zeros 1) c
    ++ lenBytes s.coiler.wheelTally ++ lenBytes (s.twist 4).acc ++ lenBytes s.coiler.unassigned

/-- METER_READ. -/
def serveMeterRead (s : State) : Served := tell (meterBytes s) s

end Sys2Proof.Machine
end

