-- ==== Sys2Proof/Machine/Lots.lean ====
section
/-! DEFINITION. The lot table (02_lots.md): creating, writing, checking, attaching, detaching, holding, resuming,
closing, deleting and reading lots. -/

namespace Sys2Proof.Machine

/-! ## Creation (R24 to R27, R29) -/

/-- The construction of a kind at creation: every numeric field at the low end of its range, lay direction S, strand
count 3, strand lot 0. -/
def StrandLot.fresh : StrandLot := { dir := .s, lay := 20, tol := 5, turns := 4, fill := 1, ordered := 1 }
def RopeLot.fresh : RopeLot :=
  { dir := .s, lay := 20, tol := 5, turns := 4, strandLot := 0, strands := 3, takeUp := 1000, coilLen := 1, ordered := 1,
    slow := 0, mark := 0, slip := 1 }
def NetLot.fresh : NetLot :=
  { strandLot := 0, mesh := 10, knot := 0, first := 0, last := 0, head := 0, ordered := 1, missed := 0 }

/-- The construction a kind code makes. -/
def freshBuild (kind : Byte) : Option Build :=
  if kind = 1 then some (.strand .fresh) else if kind = 2 then some (.rope .fresh)
  else if kind = 3 then some (.net .fresh) else none

/-- A lot at creation. -/
def Lot.fresh (n : Nat) (b : Build) : Lot :=
  { number := n, state := .draft, check := 0, stations := 0, build := b, started := 0, done := 0, produced := 0,
    rejected := 0, rows := 0 }

/-- The EMPTY record of lowest slot. -/
def State.emptySlot (s : State) : Option Slot := allSlots.find? fun k => (s.lots[k]).isNone

/-- LOT_CREATE (R29). -/
def serveLotCreate (lot : BitVec 16) (kind : Byte) (s : State) : Served :=
  let n := lot.toNat
  match freshBuild kind with
  | none => refuse .outOfRange s
  | some b =>
    if n = 0 then refuse .outOfRange s
    else if (s.lot? n).isSome then refuse .duplicate s
    else
      match s.emptySlot with
      | none => refuse .tableFull s
      | some k => answerOk (raise .lot (.lot n) LotState.draft.word (s.setLot k (some (.fresh n b))))

/-! ## LOT_WRITE (R30, R31) -/

/-- A numeric value clamped to its range, and whether it was clamped. -/
def numeric (lo hi v : Nat) : Nat × Bool := (clampNat lo hi v, clampNat lo hi v != v)

/-- An ordered count: clamped to its range and to the started count (R31). -/
def orderedCount (hi started v : Nat) : Nat × Bool :=
  let c := max (clampNat 1 hi v) started
  (c, c != v)

/-- A lay direction code. -/
def Dir.ofCode : Nat → Option Dir
  | 0 => some .s | 1 => some .z | _ => none

/-- One field of a STRAND lot written: absent when the number is not defined or the value outside its enumeration. -/
def StrandLot.write (c : StrandLot) (started no v : Nat) : Option (StrandLot × Bool) :=
  match no with
  | 1 => (Dir.ofCode v).map fun d => ({ c with dir := d }, false)
  | 2 => let r := numeric 20 60000 v; some ({ c with lay := r.1 }, r.2)
  | 3 => let r := numeric 5 250 v; some ({ c with tol := r.1 }, r.2)
  | 4 => let r := numeric 4 250 v; some ({ c with turns := r.1 }, r.2)
  | 5 => let r := numeric 1 60000 v; some ({ c with fill := r.1 }, r.2)
  | 6 => let r := orderedCount 999 started v; some ({ c with ordered := r.1 }, r.2)
  | _ => none

/-- Half the coil length in mm, the bound of the slowdown distance (R31). -/
def RopeLot.half (c : RopeLot) : Nat := c.coilLen * 500

/-- One field of a ROPE lot written. -/
def RopeLot.write (c : RopeLot) (started no v : Nat) : Option (RopeLot × Bool) :=
  match no with
  | 1 => (Dir.ofCode v).map fun d => ({ c with dir := d }, false)
  | 2 => let r := numeric 20 60000 v; some ({ c with lay := r.1 }, r.2)
  | 3 => let r := numeric 5 250 v; some ({ c with tol := r.1 }, r.2)
  | 4 => let r := numeric 4 250 v; some ({ c with turns := r.1 }, r.2)
  | 5 => if v ≤ 65535 then some ({ c with strandLot := v }, false) else none
  | 6 => if v = 3 ∨ v = 4 then some ({ c with strands := v }, false) else none
  | 7 => let r := numeric 1000 1500 v; some ({ c with takeUp := r.1 }, r.2)
  | 8 =>
    let r := numeric 1 20000 v
    let c' := { c with coilLen := r.1 }
    some ({ c' with slow := min c.slow c'.half }, r.2 || c'.half < c.slow)
  | 9 => let r := orderedCount 999 started v; some ({ c with ordered := r.1 }, r.2)
  | 10 => let r := numeric 0 (min 65535 c.half) v; some ({ c with slow := r.1 }, r.2)
  | 11 => let r := numeric 0 1000 v; some ({ c with mark := r.1 }, r.2)
  | 12 => let r := numeric 1 100 v; some ({ c with slip := r.1 }, r.2)
  | _ => none

/-- One field of a NET lot written. -/
def NetLot.write (c : NetLot) (started no v : Nat) : Option (NetLot × Bool) :=
  match no with
  | 1 => if v ≤ 65535 then some ({ c with strandLot := v }, false) else none
  | 2 => let r := numeric 10 2000 v; some ({ c with mesh := r.1 }, r.2)
  | 3 => let r := numeric 0 500 v; some ({ c with knot := r.1 }, r.2)
  | 4 => let r := numeric 0 255 v; some ({ c with first := r.1 }, r.2)
  | 5 => let r := numeric 0 255 v; some ({ c with last := r.1 }, r.2)
  | 6 => some ({ c with head := if h : v < 64 then ⟨v, h⟩ else 63 }, 63 < v)
  | 7 => let r := orderedCount 255 started v; some ({ c with ordered := r.1 }, r.2)
  | 8 => let r := numeric 0 255 v; some ({ c with missed := r.1 }, r.2)
  | _ => none

/-- One field of a lot's construction written. -/
def Build.write (b : Build) (started no v : Nat) : Option (Build × Bool) :=
  match b with
  | .strand c => (c.write started no v).map fun r => (.strand r.1, r.2)
  | .rope c => (c.write started no v).map fun r => (.rope r.1, r.2)
  | .net c => (c.write started no v).map fun r => (.net r.1, r.2)

/-- The pairs of a LOT_WRITE applied in order, absent when one of them refuses the request (R30). -/
def Build.writeAll (started : Nat) : List (Byte × BitVec 32) → Build → Bool → Option (Build × Bool)
  | [], b, clamped => some (b, clamped)
  | pair :: rest, b, clamped =>
    match b.write started pair.1.toNat pair.2.toNat with
    | some r => Build.writeAll started rest r.1 (clamped || r.2)
    | none => none

/-- LOT_WRITE. -/
def serveLotWrite (lot : BitVec 16) (pairs : List (Byte × BitVec 32)) (s : State) : Served :=
  let n := lot.toNat
  match s.lot? n with
  | none => refuse .notFound s
  | some l =>
    if l.state ≠ .draft then refuse .lotFrozen s
    else
      match Build.writeAll l.started pairs l.build false with
      | none => refuse .outOfRange s
      | some (b, clamped) => (modLot n (fun l => { l with build := b }) s, if clamped then .clamped else .ok, [])

/-! ## LOT_CHECK (R32 to R34) -/

/-- The plan's chain from a segment, absent when it reaches an empty segment or one already visited, or takes more than
`fuel` steps (R33 CHAIN). -/
def chainFrom (segs : SegIx → Segment) : Nat → SegIx → List SegIx → Option (List SegIx)
  | 0, _, _ => none
  | fuel + 1, i, seen =>
    if (segs i).rows = 0 ∨ i ∈ seen then none
    else
      match (segs i).next with
      | none => some (seen ++ [i])
      | some j => chainFrom segs fuel j (seen ++ [i])

/-- The chain of a head segment (R33). -/
def State.chain (s : State) (head : SegIx) : Option (List SegIx) := chainFrom s.segment 64 head []

/-- The STRAND construction of the lot a strand lot field names. -/
def State.strandOf (s : State) (n : Nat) : Option StrandLot := (s.lot? n).bind fun l => l.build.strand?

/-- The first reason of R33 that applies: 1 STRAND_LOT, 2 LAY_SAME, 3 NEEDLES, 4 CHAIN. -/
def planReason (b : Build) (s : State) : Option Nat :=
  match b with
  | .strand _ => none
  | .rope c =>
    match s.strandOf c.strandLot with
    | none => some 1
    | some t => if c.dir = t.dir then some 2 else none
  | .net c =>
    match s.strandOf c.strandLot with
    | none => some 1
    | some _ => if c.last < c.first then some 3 else if (s.chain c.head).isNone then some 4 else none

/-- A segment's five serialized bytes (R32). -/
def Segment.serial (g : Segment) : List Byte := u2 g.rows ++ [g.left.byte, g.right.byte] ++ u1 g.stepRows

/-- The construction fields in order, each at its width (R24 to R26). DEDUCED: the strand count, which R25 calls enumerated
without giving it codes, is sent as its value 3 or 4, in LOT_READ too (assumption log 9). -/
def Build.fields : Build → List Byte
  | .strand c => u1 c.dir.code ++ u2 c.lay ++ u1 c.tol ++ u1 c.turns ++ u2 c.fill ++ u2 c.ordered
  | .rope c =>
    u1 c.dir.code ++ u2 c.lay ++ u1 c.tol ++ u1 c.turns ++ u2 c.strandLot ++ u1 c.strands ++ u2 c.takeUp ++ u2 c.coilLen
      ++ u2 c.ordered ++ u2 c.slow ++ u2 c.mark ++ u1 c.slip
  | .net c =>
    u2 c.strandLot ++ u2 c.mesh ++ u2 c.knot ++ u1 c.first ++ u1 c.last ++ u1 c.head.val ++ u1 c.ordered ++ u1 c.missed

/-- The serialized form of a construction (R32). -/
def serialize (b : Build) (s : State) : List Byte :=
  u1 b.kindCode ++ b.fields ++
    match b with
    | .net c => ((s.chain c.head).getD []).flatMap fun i => (s.segment i).serial
    | _ => []

/-- The check value of a construction (R32). -/
def checkValue (b : Build) (s : State) : BitVec 16 := crc16 (serialize b s)

/-- LOT_CHECK (R33, R34). -/
def serveLotCheck (lot value : BitVec 16) (s : State) : Served :=
  let n := lot.toNat
  match s.lot? n with
  | none => refuse .notFound s
  | some l =>
    if l.state ≠ .draft then refuse .wrongState s
    else
      match planReason l.build s with
      | some reason => (s, .planInvalid, u2 0 ++ u1 reason)
      | none =>
        let v := checkValue l.build s
        if v = value then tell (w2 v ++ u1 0) (moveLot n .ready (modLot n (fun l => { l with check := v }) s))
        else (s, .checkMismatch, w2 v ++ u1 0)

/-- LOT_REOPEN (R35). -/
def serveLotReopen (lot : BitVec 16) (s : State) : Served :=
  match s.lot? lot.toNat with
  | none => refuse .notFound s
  | some l => if l.state = .ready then answerOk (moveLot l.number .draft s) else refuse .wrongState s

/-! ## LOT_ATTACH (R36, R37, R97, R124, R135) -/

/-- A lot's kind fits a station (R36). -/
def Build.fits (b : Build) (k : StationKind) : Bool :=
  match b, k with
  | .strand _, .strander | .rope _, .closer | .net _, .loom => true
  | _, _ => false

/-- A bobbin on the station that a lot cannot take over (R36, last row). -/
def foreignBobbin (i : Sta) (b : Build) (s : State) : Bool :=
  (placesOf i).any fun pl =>
    match s.bobbinAt pl with
    | some x => x.lot != some b.strandLot || (i == staC0 && x.dir == b.ropeDir)
    | none => false

/-- A station takes a lot, and the lot's stations set the station (R37). -/
def joinLot (i : Sta) (n : Nat) (s : State) : State :=
  modLot n (fun l => { l with stations := l.stations.add i.val }) (s.setStation i { s.station i with lot := some n })

/-- The run-length accumulator of an attached station set to zero (R20). -/
def zeroAcc (i : Sta) (s : State) : State :=
  match twistOf i with
  | some t => s.setTwist t { s.twist t with acc := .zero }
  | none => if i = staK0 then s.setCoiler { s.coiler with wheelTally := .zero } else s

/-- What the attach of a ROPE lot resets: the metering unit (R135), the unassigned tally (R130), C0's shortfall tally
(R95). -/
def attachPair (s : State) : State :=
  let s := (s.setMeter .cold).setCoiler { s.coiler with unassigned := .zero }
  { s with closerShort := .zero }

/-- FEED_OUT at attach, for RUN_OUT bobbins on used places (R97). DESIGN CHOICE: the notices of the raise come before the
FEED notices, and these go by ascending place (assumption log 7). -/
def feedOutAtAttach (i : Sta) (s : State) : State :=
  let out := (usedPlaces i s).filter fun pl =>
    match s.bobbinAt pl with
    | some b => b.state == .runOut
    | none => false
  if out = [] then s
  else out.foldl (fun s pl => raise .feed (.station i) pl.word s) (raiseCause i .feedOut s)

/-- An attach that passes R36. -/
def attachLot (i : Sta) (l : Lot) (s : State) : State :=
  let n := l.number
  let pair : Bool := i == staC0
  let s := zeroAcc i (joinLot i n s)
  let s := if pair then zeroAcc staK0 (joinLot staK0 n s) else s
  let s := if l.state = .ready then moveLot n .active s else s
  let s := moveTo i .standby s
  let s := if pair then attachPair (moveTo staK0 .active s) else s
  match loomOf i, l.build with
  | some k, .net c => feedOutAtAttach i (attachLoom k c s)
  | _, _ => if pair then feedOutAtAttach i s else s

/-- LOT_ATTACH. -/
def serveLotAttach (station : Byte) (lot : BitVec 16) (s : State) : Served :=
  match staOf station with
  | none => refuse .notBound s
  | some i =>
    if (s.station i).state ≠ .idle then refuse .wrongState s
    else
      match s.lot? lot.toNat with
      | none => refuse .notFound s
      | some l =>
        if l.state ≠ .ready ∧ l.state ≠ .active then refuse .wrongState s
        else if l.build.fits (kindOf i) = false then refuse .wrongLot s
        else if i = staC0 ∧ (s.station staK0).state ≠ .idle then refuse .wrongState s
        else if foreignBobbin i l.build s then refuse .wrongLot s
        else answerOk (attachLot i l s)

/-! ## LOT_DETACH (R38, R39) -/

/-- A detach is refused (R38). -/
def detachRefused (i : Sta) (s : State) : Bool :=
  (s.station i).lot.isNone || i == staK0 || stationRuns i s
    || (i == staC0 && !(s.coiler.a.isFree && s.coiler.b.isFree))
    || match stranderOf i with
      | some k => match s.bobbinAt (.winding k) with | some b => b.state == .winding | none => false
      | none => false

/-- A station loses its lot and its conditional causes, and goes to IDLE or HALTED (R3, R38). -/
def leaveLot (i : Sta) (s : State) : State :=
  let s := conditional.foldl (fun s c => dropCause i c s) s
  let s := s.setStation i { s.station i with lot := none }
  moveTo i (if (s.station i).causes = 0 then .idle else .halted) s

/-- The lot loses a station, and an ACTIVE lot with none left goes to READY (R38, R39). -/
def lotLosesStation (n : Nat) (i : Sta) (s : State) : State :=
  modLot n (fun l => { l with stations := l.stations.del i.val }) s
def readyIfLeft (n : Nat) (s : State) : State :=
  match s.lot? n with
  | some l => if l.state = .active ∧ l.stations = 0 then moveLot n .ready s else s
  | none => s

/-- A detach that is not refused. -/
def detachLot (i : Sta) (n : Nat) (s : State) : State :=
  let s := match loomOf i with | some k => detachLoom k s | none => s
  let s := lotLosesStation n i s
  if i = staC0 then
    let s := readyIfLeft n (lotLosesStation n staK0 s)
    discardSlip (leaveLot staK0 (leaveLot staC0 s))
  else leaveLot i (readyIfLeft n s)

/-- LOT_DETACH. -/
def serveLotDetach (station : Byte) (s : State) : Served :=
  match staOf station with
  | none => refuse .notBound s
  | some i =>
    match (s.station i).lot with
    | some n => if detachRefused i s then refuse .wrongState s else answerOk (detachLot i n s)
    | none => refuse .wrongState s

/-! ## Holding, resuming, closing, deleting (R40 to R43) -/

/-- LOT_HOLD. -/
def serveLotHold (lot : BitVec 16) (s : State) : Served :=
  match s.lot? lot.toNat with
  | none => refuse .notFound s
  | some l =>
    match l.state with
    | .active => answerOk (raiseOnAll l.stations .lotHold (moveLot l.number .held s))
    | .held => answerOk s
    | _ => refuse .wrongState s

/-- LOT_RESUME (R41). DESIGN CHOICE: a COMPLETE or CLOSED lot that was not reached while held, no station of its stations set
under LOT_HOLD, is answered OK too and nothing changes; R41 gives OK for one reached while held and WRONG_STATE for DRAFT,
READY and ACTIVE alone (assumption log 19). -/
def serveLotResume (lot : BitVec 16) (s : State) : Served :=
  match s.lot? lot.toNat with
  | none => refuse .notFound s
  | some l =>
    match l.state with
    | .held =>
      answerOk (removeFromAll l.stations .lotHold
        (moveLot l.number (if l.stations = 0 then .ready else .active) s))
    | .complete | .closed => answerOk (removeFromAll l.stations .lotHold s)
    | _ => refuse .wrongState s

/-- LOT_CLOSE. -/
def serveLotClose (lot : BitVec 16) (s : State) : Served :=
  match s.lot? lot.toNat with
  | none => refuse .notFound s
  | some l =>
    match l.state with
    | .draft | .closed => refuse .wrongState s
    | _ => answerOk (closeArbor l.number (raiseOnAll l.stations .lotEnd (moveLot l.number .closed s)))

/-- Something refers to a lot (R43). -/
def referred (n : Nat) (s : State) : Bool :=
  allStations.any (fun i => (s.station i).lot == some n)
    || s.bobbins.any (fun b => b.lot == some n && b.state != .spare)
    || (([s.coiler.a, s.coiler.b].filterMap Arbor.coil? ++ s.coiler.outbound).any fun c => c.lot == n)

/-- LOT_DELETE. -/
def serveLotDelete (lot : BitVec 16) (s : State) : Served :=
  match s.slotOf lot.toNat, s.lot? lot.toNat with
  | some k, some l =>
    if (l.state = .closed ∨ l.state = .draft) ∧ referred l.number s = false then
      answerOk (raise .lot (.lot l.number) wordEmpty (s.setLot k none))
    else refuse .wrongState s
  | _, _ => refuse .notFound s

/-! ## LOT_READ (R45) -/

/-- The progress counts of a lot's kind (R27). -/
def Lot.progress (l : Lot) : List Byte :=
  match l.build with
  | .net _ => u1 l.started ++ u1 l.done ++ u1 l.rejected ++ u4 l.rows
  | _ => u2 l.started ++ u2 l.done ++ u4 l.produced

/-- A lot's record. -/
def Lot.bytes (l : Lot) : List Byte :=
  u2 l.number ++ u1 l.build.kindCode ++ w2 l.state.word ++ w2 l.check ++ u1 l.stations.toNat ++ l.build.fields ++ l.progress

/-- The lots that are present, in slot order. -/
def State.lotList (s : State) : List Lot := allSlots.filterMap fun k => s.lots[k]

/-- LOT_READ. -/
def serveLotRead (lot : BitVec 16) (s : State) : Served :=
  if lot = 0 then tell (listBytes (fun l : Lot => u2 l.number ++ u1 l.build.kindCode ++ w2 l.state.word) s.lotList) s
  else
    match s.lot? lot.toNat with
    | some l => tell l.bytes s
    | none => refuse .notFound s

end Sys2Proof.Machine
end

