-- ==== Sys2Proof/Machine/Requests.lean ====
section
/-! DEFINITION. The requests as frames carry them (R165, R166): every request kind with its fields, its kind code, its
payload, the lengths the table of request kinds allows, and the reading of a valid frame. -/

namespace Sys2Proof.Machine

/-- A request, with its fields as wide as the frame's (R165, R166). FAULT_CLEAR's station 0xFF is ALL; ROW_REPLY and
COILER_REPORT carry their value and report bytes. -/
inductive Request where
  | stationRead (station : Byte)
  | faultClear (station : Byte)
  | stationBind (station : Byte)
  | stationUnbind (station : Byte)
  | portStatus
  | lotCreate (lot : BitVec 16) (kind : Byte)
  | lotWrite (lot : BitVec 16) (pairs : List (Byte × BitVec 32))
  | lotCheck (lot : BitVec 16) (value : BitVec 16)
  | lotReopen (lot : BitVec 16)
  | lotHold (lot : BitVec 16)
  | lotResume (lot : BitVec 16)
  | lotClose (lot : BitVec 16)
  | lotDelete (lot : BitVec 16)
  | lotRead (lot : BitVec 16)
  | lotAttach (station : Byte) (lot : BitVec 16)
  | lotDetach (station : Byte)
  | layRead (station : Byte)
  | stationRun (station : Byte)
  | stationStop (station : Byte)
  | bobbinRegister (bobbin : BitVec 16) (capacity : BitVec 32)
  | bobbinRemove (bobbin : BitVec 16)
  | bobbinIssue (station : Byte) (bobbin : BitVec 16)
  | bobbinDoff (station : Byte)
  | bobbinMount (station : Byte) (place : Byte) (bobbin : BitVec 16)
  | bobbinDismount (station : Byte) (place : Byte)
  | bobbinReturn (bobbin : BitVec 16)
  | bobbinRead (bobbin : BitVec 16)
  | feedRead (station : Byte)
  | segmentWrite (index : Byte) (rows : BitVec 16) (left : Byte) (right : Byte) (stepRows : Byte) (next : Byte)
  | segmentRead (index : Byte)
  | rowReport (station : Byte) (row : BitVec 24) (knots : BitVec 256)
  | rowReply (station : Byte) (value : Byte)
  | knotFaultRead (station : Byte) (count : Byte)
  | loomRead (station : Byte)
  | meterRead
  | coilerReport (station : Byte) (arbor : Byte) (report : Byte)
  | tagLoad (count : Byte) (tags : Vector (BitVec 24) 8)
  | coilTake
  | coilerRead (part : Byte)
  | noticeRead (count : Byte)
  | routeWrite (cls : Byte) (ports : Byte)
  | routeRead
  | attnEnable (value : Byte)
  | settingsWrite (pairs : List (Byte × BitVec 32))
  | settingsRead
  | calWrite (pairs : List (Byte × BitVec 32))
  | calRead
  | storeCommit
  deriving DecidableEq, Repr

/-- A request's kind code (R165). -/
def Request.kind : Request → Byte
  | .stationRead _ => 0x01
  | .faultClear _ => 0x02
  | .stationBind _ => 0x03
  | .stationUnbind _ => 0x04
  | .portStatus => 0x05
  | .lotCreate _ _ => 0x10
  | .lotWrite _ _ => 0x11
  | .lotCheck _ _ => 0x12
  | .lotReopen _ => 0x13
  | .lotHold _ => 0x14
  | .lotResume _ => 0x15
  | .lotClose _ => 0x16
  | .lotDelete _ => 0x17
  | .lotRead _ => 0x18
  | .lotAttach _ _ => 0x1A
  | .lotDetach _ => 0x1B
  | .layRead _ => 0x20
  | .stationRun _ => 0x28
  | .stationStop _ => 0x29
  | .bobbinRegister _ _ => 0x30
  | .bobbinRemove _ => 0x31
  | .bobbinIssue _ _ => 0x32
  | .bobbinDoff _ => 0x33
  | .bobbinMount _ _ _ => 0x34
  | .bobbinDismount _ _ => 0x35
  | .bobbinReturn _ => 0x36
  | .bobbinRead _ => 0x37
  | .feedRead _ => 0x38
  | .segmentWrite _ _ _ _ _ _ => 0x40
  | .segmentRead _ => 0x41
  | .rowReport _ _ _ => 0x42
  | .rowReply _ _ => 0x43
  | .knotFaultRead _ _ => 0x44
  | .loomRead _ => 0x45
  | .meterRead => 0x50
  | .coilerReport _ _ _ => 0x58
  | .tagLoad _ _ => 0x59
  | .coilTake => 0x5A
  | .coilerRead _ => 0x5B
  | .noticeRead _ => 0x60
  | .routeWrite _ _ => 0x61
  | .routeRead => 0x62
  | .attnEnable _ => 0x63
  | .settingsWrite _ => 0x70
  | .settingsRead => 0x71
  | .calWrite _ => 0x72
  | .calRead => 0x73
  | .storeCommit => 0x74

/-- The station byte of a station-control request, its first payload byte (R165). -/
def Request.control : Request → Option Byte
  | .stationRead _ => none
  | .faultClear station => some station
  | .stationBind _ => none
  | .stationUnbind station => some station
  | .portStatus => none
  | .lotCreate _ _ => none
  | .lotWrite _ _ => none
  | .lotCheck _ _ => none
  | .lotReopen _ => none
  | .lotHold _ => none
  | .lotResume _ => none
  | .lotClose _ => none
  | .lotDelete _ => none
  | .lotRead _ => none
  | .lotAttach station _ => some station
  | .lotDetach station => some station
  | .layRead _ => none
  | .stationRun station => some station
  | .stationStop station => some station
  | .bobbinRegister _ _ => none
  | .bobbinRemove _ => none
  | .bobbinIssue station _ => some station
  | .bobbinDoff station => some station
  | .bobbinMount station _ _ => some station
  | .bobbinDismount station _ => some station
  | .bobbinReturn _ => none
  | .bobbinRead _ => none
  | .feedRead _ => none
  | .segmentWrite _ _ _ _ _ _ => none
  | .segmentRead _ => none
  | .rowReport station _ _ => some station
  | .rowReply station _ => some station
  | .knotFaultRead _ _ => none
  | .loomRead _ => none
  | .meterRead => none
  | .coilerReport station _ _ => some station
  | .tagLoad _ _ => none
  | .coilTake => none
  | .coilerRead _ => none
  | .noticeRead _ => none
  | .routeWrite _ _ => none
  | .routeRead => none
  | .attnEnable _ => none
  | .settingsWrite _ => none
  | .settingsRead => none
  | .calWrite _ => none
  | .calRead => none
  | .storeCommit => none

/-- The bytes of pairs of a field number and a 32-bit value. -/
def pairBytes (pairs : List (Byte × BitVec 32)) : List Byte := pairs.flatMap fun x => x.1 :: bytesOf 4 x.2.toNat

/-- A request's payload: its fields in order, most significant byte first (R165, R166, R174). -/
def Request.payload : Request → List Byte
  | .stationRead station => [station]
  | .faultClear station => [station]
  | .stationBind station => [station]
  | .stationUnbind station => [station]
  | .portStatus => []
  | .lotCreate lot kind => bytesOf 2 lot.toNat ++ [kind]
  | .lotWrite lot pairs => bytesOf 2 lot.toNat ++ pairBytes pairs
  | .lotCheck lot value => bytesOf 2 lot.toNat ++ bytesOf 2 value.toNat
  | .lotReopen lot => bytesOf 2 lot.toNat
  | .lotHold lot => bytesOf 2 lot.toNat
  | .lotResume lot => bytesOf 2 lot.toNat
  | .lotClose lot => bytesOf 2 lot.toNat
  | .lotDelete lot => bytesOf 2 lot.toNat
  | .lotRead lot => bytesOf 2 lot.toNat
  | .lotAttach station lot => [station] ++ bytesOf 2 lot.toNat
  | .lotDetach station => [station]
  | .layRead station => [station]
  | .stationRun station => [station]
  | .stationStop station => [station]
  | .bobbinRegister bobbin capacity => bytesOf 2 bobbin.toNat ++ bytesOf 4 capacity.toNat
  | .bobbinRemove bobbin => bytesOf 2 bobbin.toNat
  | .bobbinIssue station bobbin => [station] ++ bytesOf 2 bobbin.toNat
  | .bobbinDoff station => [station]
  | .bobbinMount station place bobbin => [station, place] ++ bytesOf 2 bobbin.toNat
  | .bobbinDismount station place => [station, place]
  | .bobbinReturn bobbin => bytesOf 2 bobbin.toNat
  | .bobbinRead bobbin => bytesOf 2 bobbin.toNat
  | .feedRead station => [station]
  | .segmentWrite index rows left right stepRows next => [index] ++ bytesOf 2 rows.toNat ++ [left, right, stepRows, next]
  | .segmentRead index => [index]
  | .rowReport station row knots => [station] ++ bytesOf 3 row.toNat ++ bytesOf 32 knots.toNat
  | .rowReply station value => [station, value]
  | .knotFaultRead station count => [station, count]
  | .loomRead station => [station]
  | .meterRead => []
  | .coilerReport station arbor report => [station, arbor, report]
  | .tagLoad count tags => [count] ++ tags.toList.flatMap fun t => bytesOf 3 t.toNat
  | .coilTake => []
  | .coilerRead part => [part]
  | .noticeRead count => [count]
  | .routeWrite cls ports => [cls, ports]
  | .routeRead => []
  | .attnEnable value => [value]
  | .settingsWrite pairs => pairBytes pairs
  | .settingsRead => []
  | .calWrite pairs => pairBytes pairs
  | .calRead => []
  | .storeCommit => []

/-- The frame that carries a request. -/
def Request.frame (r : Request) : Frame := { kind := r.kind, payload := r.payload }

/-- A length holds `base` bytes and 1 to 12 whole pairs of 5 (R165, R187, R188). -/
def pairsLength (base n : Nat) : Bool := base + 5 ≤ n && n ≤ base + 60 && (n - base) % 5 == 0

/-- Whether the table of request kinds allows a payload of `n` bytes for a kind; absent for a kind that is not in the
table (R165). -/
def lengthAllowed (kind n : Nat) : Option Bool :=
  match kind with
  | 0x01 => some (n == 1)
  | 0x02 => some (n == 1)
  | 0x03 => some (n == 1)
  | 0x04 => some (n == 1)
  | 0x05 => some (n == 0)
  | 0x10 => some (n == 3)
  | 0x11 => some (pairsLength 2 n)
  | 0x12 => some (n == 4)
  | 0x13 => some (n == 2)
  | 0x14 => some (n == 2)
  | 0x15 => some (n == 2)
  | 0x16 => some (n == 2)
  | 0x17 => some (n == 2)
  | 0x18 => some (n == 2)
  | 0x1A => some (n == 3)
  | 0x1B => some (n == 1)
  | 0x20 => some (n == 1)
  | 0x28 => some (n == 1)
  | 0x29 => some (n == 1)
  | 0x30 => some (n == 6)
  | 0x31 => some (n == 2)
  | 0x32 => some (n == 3)
  | 0x33 => some (n == 1)
  | 0x34 => some (n == 4)
  | 0x35 => some (n == 2)
  | 0x36 => some (n == 2)
  | 0x37 => some (n == 2)
  | 0x38 => some (n == 1)
  | 0x40 => some (n == 7)
  | 0x41 => some (n == 1)
  | 0x42 => some (n == 36)
  | 0x43 => some (n == 2)
  | 0x44 => some (n == 2)
  | 0x45 => some (n == 1)
  | 0x50 => some (n == 0)
  | 0x58 => some (n == 3)
  | 0x59 => some (n == 25)
  | 0x5A => some (n == 0)
  | 0x5B => some (n == 1)
  | 0x60 => some (n == 1)
  | 0x61 => some (n == 2)
  | 0x62 => some (n == 0)
  | 0x63 => some (n == 1)
  | 0x70 => some (pairsLength 0 n)
  | 0x71 => some (n == 0)
  | 0x72 => some (pairsLength 0 n)
  | 0x73 => some (n == 0)
  | 0x74 => some (n == 0)
  | _ => none

/-- Byte `i` of a payload, and the number in `k` bytes from `i`. -/
def byteAt (pl : List Byte) (i : Nat) : Byte := (pl.drop i).headD 0
def numAt (pl : List Byte) (i k : Nat) : Nat := natOf ((pl.drop i).take k)

/-- Pairs of a number byte and a 4-byte value. -/
def readPairs : List Byte → List (Byte × BitVec 32)
  | a :: b :: c :: d :: e :: rest => (a, BitVec.ofNat 32 (natOf [b, c, d, e])) :: readPairs rest
  | _ => []

/-- The eight tag fields of a TAG_LOAD payload. -/
def readTags (pl : List Byte) : Vector (BitVec 24) 8 := .ofFn fun i => BitVec.ofNat 24 (numAt pl (1 + 3 * i.val) 3)

/-- The fields of a payload of an allowed length, by kind; any other kind reads as PORT_STATUS and is refused before
(`parse`). -/
def readRequest (kind : Nat) (pl : List Byte) : Request :=
  match kind with
  | 0x01 => .stationRead (byteAt pl 0)
  | 0x02 => .faultClear (byteAt pl 0)
  | 0x03 => .stationBind (byteAt pl 0)
  | 0x04 => .stationUnbind (byteAt pl 0)
  | 0x05 => .portStatus
  | 0x10 => .lotCreate (BitVec.ofNat 16 (numAt pl 0 2)) (byteAt pl 2)
  | 0x11 => .lotWrite (BitVec.ofNat 16 (numAt pl 0 2)) (readPairs (pl.drop 2))
  | 0x12 => .lotCheck (BitVec.ofNat 16 (numAt pl 0 2)) (BitVec.ofNat 16 (numAt pl 2 2))
  | 0x13 => .lotReopen (BitVec.ofNat 16 (numAt pl 0 2))
  | 0x14 => .lotHold (BitVec.ofNat 16 (numAt pl 0 2))
  | 0x15 => .lotResume (BitVec.ofNat 16 (numAt pl 0 2))
  | 0x16 => .lotClose (BitVec.ofNat 16 (numAt pl 0 2))
  | 0x17 => .lotDelete (BitVec.ofNat 16 (numAt pl 0 2))
  | 0x18 => .lotRead (BitVec.ofNat 16 (numAt pl 0 2))
  | 0x1A => .lotAttach (byteAt pl 0) (BitVec.ofNat 16 (numAt pl 1 2))
  | 0x1B => .lotDetach (byteAt pl 0)
  | 0x20 => .layRead (byteAt pl 0)
  | 0x28 => .stationRun (byteAt pl 0)
  | 0x29 => .stationStop (byteAt pl 0)
  | 0x30 => .bobbinRegister (BitVec.ofNat 16 (numAt pl 0 2)) (BitVec.ofNat 32 (numAt pl 2 4))
  | 0x31 => .bobbinRemove (BitVec.ofNat 16 (numAt pl 0 2))
  | 0x32 => .bobbinIssue (byteAt pl 0) (BitVec.ofNat 16 (numAt pl 1 2))
  | 0x33 => .bobbinDoff (byteAt pl 0)
  | 0x34 => .bobbinMount (byteAt pl 0) (byteAt pl 1) (BitVec.ofNat 16 (numAt pl 2 2))
  | 0x35 => .bobbinDismount (byteAt pl 0) (byteAt pl 1)
  | 0x36 => .bobbinReturn (BitVec.ofNat 16 (numAt pl 0 2))
  | 0x37 => .bobbinRead (BitVec.ofNat 16 (numAt pl 0 2))
  | 0x38 => .feedRead (byteAt pl 0)
  | 0x40 => .segmentWrite (byteAt pl 0) (BitVec.ofNat 16 (numAt pl 1 2)) (byteAt pl 3) (byteAt pl 4) (byteAt pl 5) (byteAt pl 6)
  | 0x41 => .segmentRead (byteAt pl 0)
  | 0x42 => .rowReport (byteAt pl 0) (BitVec.ofNat 24 (numAt pl 1 3)) (BitVec.ofNat 256 (numAt pl 4 32))
  | 0x43 => .rowReply (byteAt pl 0) (byteAt pl 1)
  | 0x44 => .knotFaultRead (byteAt pl 0) (byteAt pl 1)
  | 0x45 => .loomRead (byteAt pl 0)
  | 0x50 => .meterRead
  | 0x58 => .coilerReport (byteAt pl 0) (byteAt pl 1) (byteAt pl 2)
  | 0x59 => .tagLoad (byteAt pl 0) (readTags pl)
  | 0x5A => .coilTake
  | 0x5B => .coilerRead (byteAt pl 0)
  | 0x60 => .noticeRead (byteAt pl 0)
  | 0x61 => .routeWrite (byteAt pl 0) (byteAt pl 1)
  | 0x62 => .routeRead
  | 0x63 => .attnEnable (byteAt pl 0)
  | 0x70 => .settingsWrite (readPairs pl)
  | 0x71 => .settingsRead
  | 0x72 => .calWrite (readPairs pl)
  | 0x73 => .calRead
  | 0x74 => .storeCommit
  | _ => .portStatus

/-- A valid frame read as a request: the first two common checks (R165). -/
def parse (f : Frame) : Except Code Request :=
  match lengthAllowed f.kind.toNat f.payload.length with
  | none => .error .unknownRequest
  | some false => .error .badLength
  | some true => .ok (readRequest f.kind.toNat f.payload)

/-- A request's length is one the table allows: only pairs can fail it (R165). -/
def Request.lengthOk : Request → Bool
  | .lotWrite _ pairs | .settingsWrite pairs | .calWrite pairs => 1 ≤ pairs.length && pairs.length ≤ 12
  | _ => true

end Sys2Proof.Machine
end

