-- ==== Sys2Proof/Machine/LayMonitor.lean ====
section
/-! DEFINITION. Lay measurement (03_lay_measurement.md): windows, the arithmetic of a close, its classification, the
coil lay statistics, LAY_READ and the window time limit. -/

namespace Sys2Proof.Machine

/-! ## The arithmetic of a close -/

/-- The lay of a window of `dl` µm over `n` turns, in 0.1 mm (R53). -/
def layOf (dl n : Nat) : Nat := clampNat 1 65535 ((dl + n * 50) / (n * 100))

/-- The error of a lay against its target, ‰ (R54). -/
def errorOf (lay target : Nat) : Int := clampInt (-999) 999 (Int.tdiv (1000 * ((lay : Int) - target)) target)

/-- The filtered error after a close with error `e` (R55). -/
def filterOf (seed : Bool) (f : Option Int) (e : Int) : Int :=
  match seed, f with
  | false, some f => f + Int.tdiv (e - f) 4
  | _, _ => e

/-- Target lay, lay tolerance and window turns of a lot that a twisting station takes (R24, R25). -/
def Build.layTerms : Build → Option (Nat × Nat × Nat)
  | .strand c => some (c.lay, c.tol, c.turns)
  | .rope c => some (c.lay, c.tol, c.turns)
  | .net _ => none

/-- The lay terms of a twisting station's lot. -/
def State.layTerms (s : State) (t : Twi) : Option (Nat × Nat × Nat) := (s.lotOf (twiSta t)).bind fun l => l.build.layTerms

/-- The window turns of a twisting station's lot. -/
def State.turns (s : State) (t : Twi) : Nat :=
  match s.layTerms t with
  | some (_, _, n) => n
  | none => 0

/-- A twisting station is in RUN_UP or STEADY. -/
def State.turning (s : State) (t : Twi) : Bool :=
  (s.station (twiSta t)).state == .runUp || (s.station (twiSta t)).state == .steady

/-! ## Windows -/

/-- The window at the entry into RUN_UP (R48). -/
def Lay.opened (l : Lay) (closeCount nowMs : Nat) : Lay :=
  { l with
    isOpen := true, closeCount := closeCount, p := 0, dl := 0, openMs := nowMs, seedPending := true, good := 0, drift := 0 }

/-- Changes a station's measuring context. -/
def modLay (t : Twi) (f : Lay → Lay) (s : State) : State := s.setTwist t { s.twist t with lay := f (s.twist t).lay }

/-- A further window of the run (R50, R59 step 9). -/
def reopen (t : Twi) (s : State) : State :=
  if s.turning t then modLay t (fun l => { l with isOpen := true, p := 0, dl := 0, openMs := s.nowMs }) s else s

/-- The coil statistics of a steady close of C0 (R60). -/
def Coil.layStat (f : Int) (drifted : Bool) (c : Coil) : Coil :=
  { c with
    minF := some (match c.minF with | some m => min m f | none => f)
    maxF := some (match c.maxF with | some m => max m f | none => f)
    drift := if drifted then min 255 (c.drift + 1) else c.drift }

/-- Supplies the coil statistics to the coil on the WINDING or SLOWING arbor (R60). -/
def supplyLayStat (t : Twi) (f : Int) (drifted : Bool) (s : State) : State :=
  if twiSta t = staC0 then
    match s.windingArbor with
    | some id => modCoil id (Coil.layStat f drifted) s
    | none => s
  else s

/-- Classification of a close in RUN_UP with error `e` (R56). -/
def closeRunUp (t : Twi) (e : Int) (tol : Nat) (s : State) : State :=
  let w := s.twist t
  let good := if e.natAbs ≤ tol then w.lay.good + 1 else 0
  if 2 ≤ good then
    moveTo (twiSta t) .steady (s.setTwist t { w with lay := { w.lay with good := 0 }, runUp := w.runUp.stop s.nowMs })
  else modLay t (fun l => { l with good := good }) s

/-- Classification of a close in STEADY with error `e` and filtered error `f`: R57, R58, then the order of R59. -/
def closeSteady (t : Twi) (e f : Int) (tol : Nat) (s : State) : State :=
  let i := twiSta t
  let severe : Bool := 2 * tol < e.natAbs
  let beyond : Bool := tol < f.natAbs
  let drift := if beyond then min 255 ((s.twist t).lay.drift + 1) else 0
  let drifted : Bool := beyond && (s.twist t).lay.drift == 2
  let s := modLay t (fun l => { l with drift := drift }) s
  let s := supplyLayStat t f drifted s
  let s := if severe then raise .layWarn (.station i) Cause.laySevere.word s else s
  let s := if drifted then warn .layDrift .layWarn (.station i) Cause.layDrift.word s else s
  let haltSevere : Bool := severe && s.settings.haltEnable.has 0
  let haltDrift : Bool := drifted && s.settings.haltEnable.has 1
  let s := if haltSevere then raiseCause i .laySevere s else s
  if haltDrift then raiseCause i .layDrift s else s

/-- The close of a window, in the order of R59. -/
def closeWindow (t : Twi) (s : State) : State :=
  match s.layTerms t with
  | some (target, tol, n) =>
    let l := (s.twist t).lay
    let lay := layOf l.dl n
    let e := errorOf lay target
    let f := filterOf l.seedPending l.f e
    let state := (s.station (twiSta t)).state
    let s := modLay t (fun l =>
      { l.discard with lastLay := some lay, lastE := some e, f := some f, seedPending := false }) s
    let s := if state = .runUp then closeRunUp t e tol s else if state = .steady then closeSteady t e f tol s else s
    reopen t s
  | none => modLay t Lay.discard s

/-- A counted FLY edge in the lay monitor (R49, R50). -/
def layFly (t : Twi) (s : State) : State :=
  let l := (s.twist t).lay
  if l.isOpen then
    let s := modLay t (fun l => { l with p := l.p + 1 }) s
    if l.closeCount ≤ l.p + 1 then closeWindow t s else s
  else s

/-- A capstan increment in the lay monitor (R49). -/
def layCap (t : Twi) (d : Nat) (s : State) : State :=
  if (s.twist t).lay.isOpen then modLay t (fun l => { l with dl := min Config.maxMm (l.dl + d) }) s else s

/-! ## The window time limit (R52) -/

/-- The expiry of an open window. -/
def expireWindow (t : Twi) (s : State) : State :=
  warn .windowStall .layWarn (.station (twiSta t)) wordWindowStall
    (modLay t (fun l => { l with p := 0, dl := 0, openMs := s.nowMs }) s)

/-- A window that can expire: OPEN on a station in STEADY. -/
def State.canExpire (s : State) (t : Twi) : Bool :=
  (s.twist t).lay.isOpen && (s.station (twiSta t)).state == .steady

/-- WINDOW_TIME_LIMIT_EXPIRY (R52). -/
def execWindowTimeLimitExpiry (t : Twi) (s : State) : Host.Outcome State Fault Refusal :=
  .next (whenRunning (fun s =>
    if s.canExpire t then
      expireWindow t (s.advanceMs ((s.twist t).lay.openMs + s.settings.windowLimit * 1000))
    else s) s)

/-! ## LAY_READ (R61) -/

/-- The age of a window in ms, 0 when NONE. -/
def Lay.age (l : Lay) (nowMs : Nat) : Nat := if l.isOpen then elapsedMs l.openMs nowMs else 0

/-- The payload of LAY_READ. -/
def layPayload (w : Twist) (nowMs : Nat) : List Byte :=
  flag w.lay.isOpen ++ u2 w.lay.closeCount ++ u2 w.lay.p ++ u4 w.lay.dl ++ u4 (w.lay.age nowMs)
    ++ opt u2 (zeros 2) w.lay.lastLay ++ opt i2 (zeros 2) w.lay.lastE ++ opt i2 (zeros 2) w.lay.f
    ++ flag w.lay.seedPending ++ u1 w.lay.good ++ u1 w.lay.drift
    ++ u1 (w.runUp.reading nowMs) ++ u1 (w.runDown.reading nowMs)

/-- LAY_READ. -/
def serveLayRead (station : Byte) (s : State) : Served :=
  match (staOf station).bind twistOf with
  | some t => tell (layPayload (s.twist t) s.nowMs) s
  | none => refuse .outOfRange s

end Sys2Proof.Machine
end

