-- ==== Sys2Proof/Machine/Twisting.lean ====
section
/-! DEFINITION. The run phases of the twisting stations (04_twisting_stations_run_phases.md): run, stop, run-down,
stillness, phase timing. -/

namespace Sys2Proof.Machine

/-! ## STATION_RUN and STATION_STOP of a twisting station (R64, R65, R67) -/

/-- The accepted run, after any coil start: R65 steps 2 and 3, R48, R21. -/
def startTwist (t : Twi) (s : State) : State :=
  let w := s.twist t
  moveTo (twiSta t) .runUp (s.setTwist t
    { w with
      lay := w.lay.opened (s.turns t * s.settings.flyer[t]) s.nowMs
      runUp := .startAt s.nowMs s.settings.scale
      runDown := .cold
      runUpLong := false
      runDownLong := false
      stillMs := some s.nowMs })

/-- The FREE arbor a coil start at STATION_RUN takes: A if it is FREE, and B otherwise (R140). -/
def freeArborId (s : State) : Option ArborId :=
  if s.coiler.a.isFree then some .a else if s.coiler.b.isFree then some .b else none

/-- STATION_RUN of C0 past R64's checks: a coil is started where no arbor is WINDING or SLOWING (R65 step 1). No arbor
FREE, or a start the lot table refuses, cannot arise there (R64). -/
def runCloser (s : State) : Served :=
  if s.windingArbor.isSome then answerOk (startTwist 4 s)
  else
    match freeArborId s, s.lotOf staC0 with
    | some id, some l =>
      if canStart l.number s then answerOk (startTwist 4 (startCoil id l.number s)) else refuse .lotEnd s
    | _, _ => refuse .noArbor s

/-- STATION_RUN naming a twisting station, with the refusals of R64. -/
def runTwist (t : Twi) (s : State) : Served :=
  if (s.station (twiSta t)).state ≠ .standby then refuse .wrongState s
  else
    match stranderOf (twiSta t) with
    | some i =>
      match s.bobbinAt (.winding i) with
      | some b => if b.state = .winding then answerOk (startTwist t s) else refuse .noBobbin s
      | none => refuse .noBobbin s
    | none => if feedsMounted staC0 s then runCloser s else refuse .feedMissing s

/-- STATION_STOP naming a twisting station (R67). -/
def stopTwist (t : Twi) (s : State) : Served :=
  match (s.station (twiSta t)).state with
  | .runUp | .steady => answerOk (enterRunDown t s)
  | .idle => refuse .wrongState s
  | _ => answerOk s

/-! ## Stillness (R21, R69, R70) -/

/-- The end of a strander's fill, if the station is a strander (R78). -/
def endFillOf (t : Twi) (s : State) : State :=
  match stranderOf (twiSta t) with
  | some i => endFill i s
  | none => s

/-- What the event "the station becomes still" does to the station (R69, R70). -/
def becomeStill (t : Twi) (s : State) : State :=
  let i := twiSta t
  let w := s.twist t
  match (s.station i).state with
  | .runDown =>
    let s := s.setTwist t { w with runDown := w.runDown.stop s.nowMs }
    endFillOf t (moveTo i (if (s.station i).causes = 0 then .standby else .halted) s)
  | .runUp | .steady =>
    changeState i .standby wordStoppedByMachine
      (s.setTwist t { w with lay := w.lay.discard, runUp := w.runUp.stop s.nowMs })
  | _ => s

/-- STILLNESS_EXPIRY (R21). -/
def execStillnessExpiry (t : Twi) (s : State) : Host.Outcome State Fault Refusal :=
  .next (whenRunning (fun s =>
    match (s.twist t).stillMs with
    | some t0 =>
      let s := s.advanceMs (t0 + Config.stillMs)
      becomeStill t (s.setTwist t { s.twist t with stillMs := none, still := true })
    | none => s) s)

/-- A counted FLY edge in the stillness watch (R21). -/
def flyStill (t : Twi) (s : State) : State := s.setTwist t { s.twist t with stillMs := some s.nowMs, still := false }

/-! ## Phase warnings (R73, R74) -/

/-- RUN_UP_LONG is raised and marked. -/
def longRunUp (t : Twi) (s : State) : State :=
  warn .runUpLong .phaseWarn (.station (twiSta t)) wordRunUpLong (s.setTwist t { s.twist t with runUpLong := true })

/-- RUN_DOWN_LONG is raised and marked. -/
def longRunDown (t : Twi) (s : State) : State :=
  warn .runDownLong .phaseWarn (.station (twiSta t)) wordRunDownLong (s.setTwist t { s.twist t with runDownLong := true })

/-- A run-up, and a run-down, whose warning has not been raised. -/
def State.runUpOpen (s : State) (t : Twi) : Bool :=
  (s.station (twiSta t)).state == .runUp && !(s.twist t).runUpLong
def State.runDownOpen (s : State) (t : Twi) : Bool :=
  (s.station (twiSta t)).state == .runDown && !(s.twist t).runDownLong

/-- RUN_UP_LONG (R73). -/
def execRunUpLong (t : Twi) (s : State) : Host.Outcome State Fault Refusal :=
  .next (whenRunning (fun s =>
    match s.runUpOpen t, (s.twist t).runUp.running with
    | true, some (t0, scale) => longRunUp t (s.advanceMs (t0 + s.settings.runUpLimit * scale))
    | _, _ => s) s)

/-- RUN_DOWN_LONG (R74). -/
def execRunDownLong (t : Twi) (s : State) : Host.Outcome State Fault Refusal :=
  .next (whenRunning (fun s =>
    match s.runDownOpen t, (s.twist t).runDown.running with
    | true, some (t0, scale) => longRunDown t (s.advanceMs (t0 + s.settings.runDownLimit * scale))
    | _, _ => s) s)

end Sys2Proof.Machine
end

