-- ==== Sys2Proof/Machine/Stations.lean ====
section
/-! DEFINITION. The station unit's own requests: STATION_READ, FAULT_CLEAR and the retry wait, binding and takeover
(R10 to R13, R167, R168), and the way of STATION_RUN and STATION_STOP to the station's kind (R64, R67, R111, R112). -/

namespace Sys2Proof.Machine

/-! ## STATION_RUN and STATION_STOP -/

/-- STATION_RUN. -/
def serveStationRun (station : Byte) (s : State) : Served :=
  match staOf station with
  | none => refuse .notBound s
  | some i =>
    match twistOf i, loomOf i with
    | some t, _ => runTwist t s
    | none, some l => runLoom l s
    | none, none => refuse .wrongState s

/-- STATION_STOP. -/
def serveStationStop (station : Byte) (s : State) : Served :=
  match staOf station with
  | none => refuse .notBound s
  | some i =>
    match twistOf i, loomOf i with
    | some t, _ => stopTwist t s
    | none, some l => stopLoom l s
    | none, none => refuse .wrongState s

/-! ## FAULT_CLEAR (R10 to R12) -/

/-- The causes a FAULT_CLEAR removes from a station: LAY_SEVERE only when retry-until is absent. -/
def clearable (i : Sta) (s : State) : List Cause :=
  (if (s.station i).retryUntilMs.isSome then [] else [.laySevere]) ++ plainLatched

/-- FAULT_CLEAR of one station: the causes go, and the station moves by R7; finding none changes nothing. -/
def clearFaults (i : Sta) (s : State) : State :=
  let cs := clearable i s
  if cs.any (s.has i) then settle i (cs.foldl (fun s c => dropCause i c s) s) else s

/-- The stations bound to a port (R172). -/
def boundStations (p : Port) (s : State) : List Sta := allStations.filter fun i => (s.station i).bound == some p

/-- FAULT_CLEAR; 0xFF is ALL. -/
def serveFaultClear (p : Port) (station : Byte) (s : State) : Served :=
  let kept := fun i => (s.station i).retryUntilMs.isSome
  let run := fun is : List Sta =>
    (is.foldl (fun s i => clearFaults i s) s, if is.any kept then Code.retryWait else Code.ok, ([] : List Byte))
  if station = 0xFF then
    if boundStations p s = [] then refuse .notBound s else run (boundStations p s)
  else
    match staOf station with
    | some i => run [i]
    | none => refuse .notBound s

/-- RETRY_WAIT_EXPIRY (R12). -/
def execRetryWaitExpiry (i : Sta) (s : State) : Host.Outcome State Fault Refusal :=
  .next (whenRunning (fun s =>
    match (s.station i).retryUntilMs with
    | some t =>
      let s := s.advanceMs t
      s.setStation i { s.station i with retryUntilMs := none }
    | none => s) s)

/-! ## Binding (R167, R168) -/

/-- A station bound to a port, or to none. -/
def bindTo (i : Sta) (o : Option Port) (s : State) : State := s.setStation i { s.station i with bound := o }

/-- STATION_BIND. -/
def serveStationBind (p : Port) (station : Byte) (s : State) : Served :=
  match staOf station with
  | none => refuse .outOfRange s
  | some i =>
    match (s.station i).bound with
    | none => answerOk (bindTo i (some p) s)
    | some q =>
      if q = p then answerOk s
      else if (s.port q).live then refuse .stationHeld s
      else answerOk (offer q .link (.station i) wordTakenOver (bindTo i (some p) s))

/-- STATION_UNBIND. -/
def serveStationUnbind (station : Byte) (s : State) : Served :=
  match staOf station with
  | none => refuse .notBound s
  | some i => if stationRuns i s then refuse .wrongState s else answerOk (bindTo i none s)

/-! ## STATION_READ (R13) -/

/-- The run-length accumulator of a station; a loom has none (R20). -/
def accOf (i : Sta) (s : State) : Option Len :=
  match twistOf i with
  | some t => some (s.twist t).acc
  | none => if i = staK0 then some s.coiler.wheelTally else none

/-- The payload of STATION_READ. -/
def stationBytes (i : Sta) (s : State) : List Byte :=
  let r := s.station i
  let w := (twistOf i).map s.twist
  u1 i.val ++ u1 (kindOf i).code ++ opt (fun p : Port => u1 p.val) (zeros 1) r.bound ++ w2 r.state.word
    ++ u2 r.causes.toNat ++ opt u2 (zeros 2) r.lot ++ opt u2 (zeros 2) (r.retryUntilMs.map (· - s.nowMs))
    ++ opt lenBytes (zeros 6) (accOf i s) ++ opt (fun w : Twist => flag w.still) (zeros 1) w
    ++ opt (fun w : Twist => u1 (w.runUp.reading s.nowMs)) (zeros 1) w
    ++ opt (fun w : Twist => u1 (w.runDown.reading s.nowMs)) (zeros 1) w

/-- STATION_READ. -/
def serveStationRead (station : Byte) (s : State) : Served :=
  match staOf station with
  | none => refuse .outOfRange s
  | some i => tell (stationBytes i s) s

end Sys2Proof.Machine
end

