-- ==== Sys2Proof/Machine/Links.lean ====
section
/-! DEFINITION. The part of the ports that other blocks use: link silence (R169, R170) and PORT_STATUS (R172); and the
notice unit's requests (10_notices_and_attention.md). -/

namespace Sys2Proof.Machine

/-! ## Link silence (R169, R170) -/

/-- A LIVE port falls silent: its link state, the LINK notice, and LINK_SILENT on its stations if halt-enabled. -/
def fallSilent (p : Port) (s : State) : State :=
  let s := s.setPort p { s.port p with live := false }
  let s := raise .link (.port p) wordSilent s
  if s.settings.haltEnable.has 2 then
    allStations.foldl (fun s i => if (s.station i).bound = some p then raiseCause i .linkSilent s else s) s
  else s

/-- What is left of the silence period of a LIVE port, ms: the period less the time elapsed since its last valid time, and
0 where the period has elapsed (R169, R171); none on a SILENT port and with the period OFF. -/
def silenceLeftMs (p : Port) (s : State) : Option Nat :=
  if (s.port p).live then (s.settings.silence[p]).ms.map (· - elapsedMs (s.port p).lastValidMs s.nowMs) else none

/-- SILENCE_EXPIRY. -/
def execSilenceExpiry (p : Port) (s : State) : Host.Outcome State Fault Refusal :=
  .next (whenRunning (fun s =>
    match silenceLeftMs p s with
    | some ms => fallSilent p (s.advanceMs (s.nowMs + ms))
    | none => s) s)

/-- The arrival of a valid frame: the last valid time, and the end of a silence with its LINK notice (R169, R170). -/
def validArrival (p : Port) (s : State) : State :=
  let u := s.port p
  let s := s.setPort p { u with live := true, lastValidMs := s.nowMs }
  if u.live then s else raise .link (.port p) wordLive s

/-! ## PORT_STATUS (R172) -/

/-- The stations bound to a port, as a set. -/
def boundSet (p : Port) (s : State) : BitSet 8 :=
  allStations.foldl (fun x i => if (s.station i).bound = some p then BitSet.add x i.val else x) 0

/-- PORT_STATUS. -/
def servePortStatus (p : Port) (s : State) : Served :=
  tell (u1 p.val
    ++ allPorts.flatMap (fun q => u1 (if (s.port q).live then 0 else 1) ++ u4 (s.settings.silence[q]).code)
    ++ u1 (boundSet p s).toNat) s

/-! ## NOTICE_READ (R183) -/

/-- NOTICE_READ. -/
def serveNoticeRead (p : Port) (count : Byte) (s : State) : Served :=
  if count.toNat < 1 ∨ 4 < count.toNat then refuse .outOfRange s
  else
    let q := s.queue p
    tell (listBytes Entry.bytes (q.take count.toNat)) (s.setQueue p (q.drop count.toNat))

/-! ## Routing (R181) -/

/-- ROUTE_WRITE. -/
def serveRouteWrite (cls ports : Byte) (s : State) : Served :=
  if h : 1 ≤ cls.toNat ∧ cls.toNat ≤ 19 then
    if 15 < ports.toNat then refuse .outOfRange s
    else
      answerOk (s.setSettings
        { s.settings with
          routing := s.settings.routing.set (cls.toNat - 1) (BitVec.ofNat 4 ports.toNat) (by omega) })
  else refuse .outOfRange s

/-- The routing table's 19 port sets, in class order. -/
def routeBytes (c : Settings) : List Byte := c.routing.toList.flatMap fun x => u1 x.toNat

/-- ROUTE_READ. -/
def serveRouteRead (s : State) : Served := tell (routeBytes s.settings) s

/-! ## ATTN_ENABLE (R184) -/

/-- ATTN_ENABLE. -/
def serveAttnEnable (p : Port) (value : Byte) (s : State) : Served :=
  if value = 1 then answerOk (s.setSettings { s.settings with attn := s.settings.attn.add p.val })
  else if value = 0 then answerOk (s.setSettings { s.settings with attn := s.settings.attn.del p.val })
  else refuse .outOfRange s

end Sys2Proof.Machine
end

