-- ==== Sys2Proof/Machine/WorksSettings.lean ====
section
/-! DEFINITION. The works settings record (R186 to R188) and the settings store (R189). -/

namespace Sys2Proof.Machine

/-! ## SETTINGS_WRITE (R187) -/

/-- One setting written: absent for a number outside 1 to 16, an enumerated value outside its codes, or a set with a bit
above those defined; with it, whether the value was clamped. -/
def Settings.write (c : Settings) (no v : Nat) : Option (Settings × Bool) :=
  let num := fun (lo hi : Nat) (f : Nat → Settings) => some (f (clampNat lo hi v), clampNat lo hi v != v)
  let silent := fun (p : Port) => (Silence.ofCode v).map fun x => ({ c with silence := c.silence.set p x }, false)
  match no with
  | 1 => (RetryWait.ofCode v).map fun x => ({ c with retryWait := x }, false)
  | 2 => num 1 60 fun x => { c with windowLimit := x }
  | 3 => (Scale.ofCode v).map fun x => ({ c with scale := x }, false)
  | 4 => num 1 240 fun x => { c with runUpLimit := x }
  | 5 => num 1 240 fun x => { c with runDownLimit := x }
  | 6 => if v < 2048 then some ({ c with disable := BitVec.ofNat 11 v }, false) else none
  | 7 => if v < 8 then some ({ c with haltEnable := BitVec.ofNat 3 v }, false) else none
  | 8 => num 0 1000000 fun x => { c with lowMark := x }
  | 9 => num 16 256 fun x => { c with needles := c.needles.set 0 x }
  | 10 => num 16 256 fun x => { c with needles := c.needles.set 1 x }
  | 11 => num 0 32 fun x => { c with tagsLow := x }
  | 12 => num 1 12 fun x => { c with listHigh := x }
  | 13 => silent 0
  | 14 => silent 1
  | 15 => silent 2
  | 16 => silent 3
  | _ => none

/-- Pairs applied in order by a writer, absent when one of them refuses the request. -/
def writePairs (f : Settings → Nat → Nat → Option (Settings × Bool)) :
    List (Byte × BitVec 32) → Settings → Bool → Option (Settings × Bool)
  | [], c, clamped => some (c, clamped)
  | pair :: rest, c, clamped =>
    match f c pair.1.toNat pair.2.toNat with
    | some r => writePairs f rest r.1 (clamped || r.2)
    | none => none

/-- A pair writes the needle count of a loom holding a lot (R106). -/
def needleHeld (s : State) (pair : Byte × BitVec 32) : Bool :=
  (pair.1.toNat == 9 && (s.station 5).lot.isSome) || (pair.1.toNat == 10 && (s.station 6).lot.isSome)

/-- A window, a run-up, a run-down or a port already past a limit that the request has written (R52, R73, R74, R171). -/
def windowOverdue (t : Twi) (s : State) : Bool :=
  s.canExpire t && (s.twist t).lay.openMs + s.settings.windowLimit * 1000 ≤ s.nowMs
def runUpOverdue (t : Twi) (s : State) : Bool :=
  s.runUpOpen t && s.settings.runUpLimit ≤ (s.twist t).runUp.reading s.nowMs
def runDownOverdue (t : Twi) (s : State) : Bool :=
  s.runDownOpen t && s.settings.runDownLimit ≤ (s.twist t).runDown.reading s.nowMs
def silenceOverdue (p : Port) (s : State) : Bool := silenceLeftMs p s == some 0

/-- The immediate effects of the settings a request wrote (R187): each in its own rule's words. -/
def settingsTaken (wrote : Nat → Bool) (s : State) : State :=
  let s := if wrote 2 then allTwists.foldl (fun s t => if windowOverdue t s then expireWindow t s else s) s else s
  let s := if wrote 4 then allTwists.foldl (fun s t => if runUpOverdue t s then longRunUp t s else s) s else s
  let s := if wrote 5 then allTwists.foldl (fun s t => if runDownOverdue t s then longRunDown t s else s) s else s
  allPorts.foldl (fun s p => if wrote (13 + p.val) && silenceOverdue p s then fallSilent p s else s) s

/-- SETTINGS_WRITE. -/
def serveSettingsWrite (pairs : List (Byte × BitVec 32)) (s : State) : Served :=
  match writePairs Settings.write pairs s.settings false with
  | none => refuse .outOfRange s
  | some (c, clamped) =>
    if pairs.any (needleHeld s) then refuse .wrongState s
    else
      (settingsTaken (fun n => pairs.any fun pair => pair.1.toNat == n) (s.setSettings c),
        if clamped then .clamped else .ok, [])

/-- Settings 1 to 16 as their values or codes (R186). -/
def Settings.values (c : Settings) : List Nat :=
  [c.retryWait.code, c.windowLimit, c.scale.code, c.runUpLimit, c.runDownLimit, c.disable.toNat, c.haltEnable.toNat,
    c.lowMark, c.needles[0], c.needles[1], c.tagsLow, c.listHigh, c.silence[0].code, c.silence[1].code, c.silence[2].code,
    c.silence[3].code]

/-- The payload of SETTINGS_READ. -/
def settingsBytes (c : Settings) : List Byte := c.values.flatMap u4 ++ routeBytes c ++ u1 c.attn.toNat

/-- SETTINGS_READ. -/
def serveSettingsRead (s : State) : Served := tell (settingsBytes s.settings) s

/-! ## CAL_WRITE (R17, R18, R188) -/

/-- The items of CAL_WRITE. -/
inductive CalItem where
  | edge (c : Chan)
  | filter (c : Chan)
  | capstan (t : Twi)
  | flyer (t : Twi)
  | wheel

/-- The item an item code names (R188). -/
def calItem (code : Nat) : Option CalItem :=
  if h : code < 11 then some (.edge ⟨code, h⟩)
  else if h : 16 ≤ code ∧ code < 27 then some (.filter ⟨code - 16, by omega⟩)
  else if h : 32 ≤ code ∧ code < 37 then some (.capstan ⟨code - 32, by omega⟩)
  else if h : 40 ≤ code ∧ code < 45 then some (.flyer ⟨code - 40, by omega⟩)
  else if code = 48 then some .wheel
  else none

/-- One item written, as `Settings.write` does for settings. -/
def Settings.writeCal (c : Settings) (code v : Nat) : Option (Settings × Bool) :=
  match calItem code with
  | some (.edge k) => (EdgeMode.ofCode v).map fun x => ({ c with edge := c.edge.set k x }, false)
  | some (.filter k) => (Filter.ofCode v).map fun x => ({ c with filter := c.filter.set k x }, false)
  | some (.capstan t) => some ({ c with capstan := c.capstan.set t (clampNat 1 65535 v) }, clampNat 1 65535 v != v)
  | some (.flyer t) => some ({ c with flyer := c.flyer.set t (clampNat 1 255 v) }, clampNat 1 255 v != v)
  | some .wheel => some ({ c with wheel := clampNat 1 65535 v }, clampNat 1 65535 v != v)
  | none => none

/-- A twisting station, or K0's wheel, is moving (R18). -/
def twistMoving (t : Twi) (s : State) : Bool := (s.station (twiSta t)).state.twistRuns
def wheelMoving (s : State) : Bool := s.windingArbor.isSome
def chanMoving (c : Chan) (s : State) : Bool :=
  if h : c.val < 10 then twistMoving ⟨c.val / 2, by omega⟩ s else wheelMoving s

/-- An item belongs to a channel or station that is moving. -/
def calMoving (s : State) (pair : Byte × BitVec 32) : Bool :=
  match calItem pair.1.toNat with
  | some (.edge c) | some (.filter c) => chanMoving c s
  | some (.capstan t) | some (.flyer t) => twistMoving t s
  | some .wheel => wheelMoving s
  | none => false

/-- Every channel. -/
def allChannels : List Chan := List.finRange 11

/-- Pending changes are discarded on the channels whose edge mode or filter has changed (R18). -/
def discardPending (old : Settings) (s : State) : State :=
  allChannels.foldl (fun s c =>
    if old.edge[c] ≠ s.settings.edge[c] ∨ old.filter[c] ≠ s.settings.filter[c] then
      s.setChannel c { s.channel c with pending := none }
    else s) s

/-- CAL_WRITE. -/
def serveCalWrite (pairs : List (Byte × BitVec 32)) (s : State) : Served :=
  match writePairs Settings.writeCal pairs s.settings false with
  | none => refuse .outOfRange s
  | some (c, clamped) =>
    if pairs.any (calMoving s) then refuse .wrongState s
    else (discardPending s.settings (s.setSettings c), if clamped then .clamped else .ok, [])

/-- The payload of CAL_READ. -/
def calBytes (c : Settings) : List Byte :=
  (c.edge.toList.map EdgeMode.code ++ c.filter.toList.map Filter.code ++ c.capstan.toList ++ c.flyer.toList
    ++ [c.wheel]).flatMap u4

/-- CAL_READ. -/
def serveCalRead (s : State) : Served := tell (calBytes s.settings) s

/-! ## STORE_COMMIT (R189) -/

/-- STORE_COMMIT. -/
def serveStoreCommit (p : Port) (s : State) : Served :=
  if s.commit.isSome then refuse .busy s
  else
    answerOk { s with
      store := { s.store with valid := false }, commit := some { snapshot := s.settings, sender := some p } }

/-- STORE_COMMIT_COMPLETION: of a commit, or of the rewrite of R191. -/
def execStoreCommitCompletion (s : State) : Host.Outcome State Fault Refusal :=
  .next (whenRunning (fun s =>
    match s.commit with
    | some c =>
      let s := { s with store := { valid := true, copy := c.snapshot }, commit := none }
      match c.sender with
      | some p => raise .stored (.port p) wordCommitted s
      | none => raise .stored (.port 0) wordRewritten s
    | none => s) s)

end Sys2Proof.Machine
end

