-- ==== Sys2Proof/Machine/Ports.lean ====
section
/-! DEFINITION. The ports (09_ports_frames_and_binding.md): the common checks, the taking of a request and its answer,
the arrival of frames, the receiver byte by byte, the answer's end. -/

namespace Sys2Proof.Machine

/-! ## Taking a request (R162, R163, R165) -/

/-- The owner of a request carries it out. -/
def owner (p : Port) (r : Request) (s : State) : Served :=
  match r with
  | .stationRead station => serveStationRead station s
  | .faultClear station => serveFaultClear p station s
  | .stationBind station => serveStationBind p station s
  | .stationUnbind station => serveStationUnbind station s
  | .portStatus => servePortStatus p s
  | .lotCreate lot kind => serveLotCreate lot kind s
  | .lotWrite lot pairs => serveLotWrite lot pairs s
  | .lotCheck lot value => serveLotCheck lot value s
  | .lotReopen lot => serveLotReopen lot s
  | .lotHold lot => serveLotHold lot s
  | .lotResume lot => serveLotResume lot s
  | .lotClose lot => serveLotClose lot s
  | .lotDelete lot => serveLotDelete lot s
  | .lotRead lot => serveLotRead lot s
  | .lotAttach station lot => serveLotAttach station lot s
  | .lotDetach station => serveLotDetach station s
  | .layRead station => serveLayRead station s
  | .stationRun station => serveStationRun station s
  | .stationStop station => serveStationStop station s
  | .bobbinRegister bobbin capacity => serveBobbinRegister bobbin capacity s
  | .bobbinRemove bobbin => serveBobbinRemove bobbin s
  | .bobbinIssue station bobbin => serveBobbinIssue station bobbin s
  | .bobbinDoff station => serveBobbinDoff station s
  | .bobbinMount station place bobbin => serveBobbinMount station place bobbin s
  | .bobbinDismount station place => serveBobbinDismount station place s
  | .bobbinReturn bobbin => serveBobbinReturn bobbin s
  | .bobbinRead bobbin => serveBobbinRead bobbin s
  | .feedRead station => serveFeedRead station s
  | .segmentWrite index rows left right stepRows next => serveSegmentWrite index rows left right stepRows next s
  | .segmentRead index => serveSegmentRead index s
  | .rowReport station row knots => serveRowReport station row knots s
  | .rowReply station value => serveRowReply station value s
  | .knotFaultRead station count => serveKnotFaultRead station count s
  | .loomRead station => serveLoomRead station s
  | .meterRead => serveMeterRead s
  | .coilerReport station arbor report => serveCoilerReport station arbor report s
  | .tagLoad count tags => serveTagLoad count tags s
  | .coilTake => serveCoilTake s
  | .coilerRead part => serveCoilerRead part s
  | .noticeRead count => serveNoticeRead p count s
  | .routeWrite cls ports => serveRouteWrite cls ports s
  | .routeRead => serveRouteRead s
  | .attnEnable value => serveAttnEnable p value s
  | .settingsWrite pairs => serveSettingsWrite pairs s
  | .settingsRead => serveSettingsRead s
  | .calWrite pairs => serveCalWrite pairs s
  | .calRead => serveCalRead s
  | .storeCommit => serveStoreCommit p s

/-- The third common check of a station-control request naming `station` (R165); FAULT_CLEAR may name ALL. -/
def bindingOk (p : Port) (r : Request) (station : Byte) (s : State) : Bool :=
  match staOf station with
  | some i => (s.station i).bound == some p
  | none => r == .faultClear 0xFF

/-- A request passes the common checks to its owner (R165). -/
def checked (p : Port) (r : Request) (s : State) : Served :=
  if r.lengthOk = false then refuse .badLength s
  else
    match r.control with
    | some b => if bindingOk p r b s then owner p r s else refuse .notBound s
    | none => owner p r s

/-- The port status byte as an answer on a port is built (R163). -/
def portStatus (p : Port) (s : State) : Byte :=
  statusByte (!(s.queue p).isEmpty) (s.port p).frameErr (s.port p).noticeOvf s.commit.isSome

/-- The answer is built after the request's effects, shows and clears FRAME_ERR and NOTICE_OVF, and becomes the port's
answer in progress (R162, R163). -/
def answerWith (p : Port) (kind : Byte) (r : Served) : State :=
  let s := r.1
  s.setPort p
    { s.port p with
      answer := some { kind := kind, code := r.2.1, status := portStatus p s, payload := r.2.2, startUs := s.now }
      frameErr := false
      noticeOvf := false }

/-- A request taken on a port. -/
def takeRequest (p : Port) (r : Request) (s : State) : State := answerWith p r.kind (checked p r s)

/-- A frame taken on a port: refused by the first two common checks, or its request taken. -/
def takeFrame (p : Port) (f : Frame) (s : State) : State :=
  match parse f with
  | .error c => answerWith p f.kind (refuse c s)
  | .ok r => takeRequest p r s

/-! ## Arrival (R162, R170, R173) -/

/-- A frame received is discarded with FRAME_ERR set (R161). -/
def frameError (p : Port) (s : State) : State := s.setPort p { s.port p with frameErr := true }

/-- A frame is held while an answer is in progress; it overwrites a held frame, with FRAME_ERR set (R162). -/
def holdFrame (p : Port) (f : Frame) (s : State) : State :=
  let u := s.port p
  s.setPort p { u with held := some f, frameErr := u.frameErr || u.held.isSome }

/-- A valid frame has arrived on a port: taken at once by `take`, or held (R162). -/
def arrive (p : Port) (f : Frame) (take : State → State) (s : State) : State :=
  let s := validArrival p s
  if (s.port p).answer.isNone then take s else holdFrame p f s

/-- A request's frame arrives on a port. From supply low until the next start links are ignored (R173); a frame of
more than 64 payload bytes is discarded (R161). -/
def requestArrives (p : Port) (r : Request) (s : State) : State :=
  whenRunning (fun s =>
    if Config.maxPayload < r.payload.length then frameError p s else arrive p r.frame (takeRequest p r) s) s

/-- The same for any frame. -/
def frameArrives (p : Port) (f : Frame) (s : State) : State :=
  whenRunning (fun s =>
    if Config.maxPayload < f.payload.length then frameError p s else arrive p f (takeFrame p f) s) s

/-! ## The receiver (R160, R161) -/

/-- The receiver's state after a byte. -/
def setAssembly (p : Port) (a : Assembly) (s : State) : State :=
  s.setPort p { s.port p with asm := a, byteUs := s.now }

/-- The frame being received is discarded (R161). -/
def discardFrame (p : Port) (s : State) : State := frameError p (s.setPort p { s.port p with asm := .hunt })

/-- A byte with its stop bit. -/
def receiveByte (p : Port) (b : Byte) (s : State) : State :=
  match (s.port p).asm with
  | .hunt => if b = 0xC5 then setAssembly p (.kind 0xFF) s else s
  | .kind crc => setAssembly p (.length (crc8Byte crc b) b) s
  | .length crc kind =>
    if Config.maxPayload < b.toNat then discardFrame p s
    else if b = 0 then setAssembly p (.check (crc8Byte crc b) kind []) s
    else setAssembly p (.payload (crc8Byte crc b) kind b.toNat []) s
  | .payload crc kind size got =>
    if size ≤ got.length + 1 then setAssembly p (.check (crc8Byte crc b) kind (got ++ [b])) s
    else setAssembly p (.payload (crc8Byte crc b) kind size (got ++ [b])) s
  | .check crc kind got =>
    if crc8Byte crc b = 0 then
      frameArrives p { kind := kind, payload := got } (s.setPort p { s.port p with asm := .hunt })
    else discardFrame p s

/-- A broken byte: discarded in HUNT, and inside a frame it discards the frame. -/
def receiveBroken (p : Port) (s : State) : State :=
  match (s.port p).asm with
  | .hunt => s
  | _ => discardFrame p s

/-- BYTE_RECEIVED. -/
def execByteReceived (p : Port) (b : Byte) (stopBit : Bool) (s : State) : Host.Outcome State Fault Refusal :=
  .next (whenRunning (fun s => if stopBit then receiveByte p b s else receiveBroken p s) s)

/-- BYTE_GAP_EXPIRY (R161). -/
def execByteGapExpiry (p : Port) (s : State) : Host.Outcome State Fault Refusal :=
  .next (whenRunning (fun s =>
    match (s.port p).asm with
    | .hunt => s
    | _ => discardFrame p (s.advanceUs ((s.port p).byteUs + Config.byteGapUs))) s)

/-! ## The answer's frame and its end (R159, R162) -/

/-- The bytes of an answer frame (R159, R160, R163). -/
def Answer.bytes (a : Answer) : List Byte :=
  let body := [a.kind, a.code.code, a.status] ++ u1 a.payload.length ++ a.payload
  0xC6 :: body ++ [crc8 body]

/-- The time of `k` bytes at 460,800 baud, 10 bit times each, in whole µs, the last one begun included (R162). -/
def byteTimesUs (k : Nat) : Nat := (k * 3125 + 143) / 144

/-- The held frame, if any, is taken when the answer in progress has gone (R162). -/
def takeHeld (p : Port) (s : State) : State :=
  match (s.port p).held with
  | some f => takeFrame p f (s.setPort p { s.port p with held := none })
  | none => s

/-- ANSWER_COMPLETE. -/
def execAnswerComplete (p : Port) (s : State) : Host.Outcome State Fault Refusal :=
  .next (whenRunning (fun s =>
    match (s.port p).answer with
    | some a =>
      let s := s.advanceUs (a.startUs + byteTimesUs (a.payload.length + 6))
      takeHeld p (s.setPort p { s.port p with answer := none })
    | none => s) s)

end Sys2Proof.Machine
end

