-- ==== Sys2Proof/Machine/Commands.lean ====
section
/-! DEFINITION. The meaning of each request command: its frame arrives on its port (`requestArrives`); the effects are
its owner's, in the file of its family. -/

namespace Sys2Proof.Machine

/-- STATION_READ (R13). -/
def execStationRead (p : Port) (station : Byte) (s : State) : Host.Outcome State Fault Refusal :=
  .next (requestArrives p (.stationRead station) s)

/-- FAULT_CLEAR naming one station (R10). -/
def execFaultClear (p : Port) (station : Byte) (s : State) : Host.Outcome State Fault Refusal :=
  .next (requestArrives p (.faultClear station) s)

/-- FAULT_CLEAR with 0xFF, ALL (R11). -/
def execFaultClearAll (p : Port) (s : State) : Host.Outcome State Fault Refusal :=
  .next (requestArrives p (.faultClear 0xFF) s)

/-- STATION_BIND (R167). -/
def execStationBind (p : Port) (station : Byte) (s : State) : Host.Outcome State Fault Refusal :=
  .next (requestArrives p (.stationBind station) s)

/-- STATION_UNBIND (R168). -/
def execStationUnbind (p : Port) (station : Byte) (s : State) : Host.Outcome State Fault Refusal :=
  .next (requestArrives p (.stationUnbind station) s)

/-- PORT_STATUS (R172). -/
def execPortStatus (p : Port) (s : State) : Host.Outcome State Fault Refusal :=
  .next (requestArrives p .portStatus s)

/-- A valid frame of a kind outside the table of request kinds (R165). -/
def execUnknownRequest (p : Port) (kind : Byte) (payload : List Byte) (s : State) : Host.Outcome State Fault Refusal :=
  .next (frameArrives p { kind := kind, payload := payload } s)

/-- LOT_CREATE (R29). -/
def execLotCreate (p : Port) (lot : BitVec 16) (kind : Byte) (s : State) : Host.Outcome State Fault Refusal :=
  .next (requestArrives p (.lotCreate lot kind) s)

/-- LOT_WRITE: pairs of field number and value (R30). -/
def execLotWrite (p : Port) (lot : BitVec 16) (pairs : List (Byte × BitVec 32)) (s : State) : Host.Outcome State Fault Refusal :=
  .next (requestArrives p (.lotWrite lot pairs) s)

/-- LOT_CHECK (R34). -/
def execLotCheck (p : Port) (lot : BitVec 16) (value : BitVec 16) (s : State) : Host.Outcome State Fault Refusal :=
  .next (requestArrives p (.lotCheck lot value) s)

/-- LOT_REOPEN (R35). -/
def execLotReopen (p : Port) (lot : BitVec 16) (s : State) : Host.Outcome State Fault Refusal :=
  .next (requestArrives p (.lotReopen lot) s)

/-- LOT_HOLD (R40). -/
def execLotHold (p : Port) (lot : BitVec 16) (s : State) : Host.Outcome State Fault Refusal :=
  .next (requestArrives p (.lotHold lot) s)

/-- LOT_RESUME (R41). -/
def execLotResume (p : Port) (lot : BitVec 16) (s : State) : Host.Outcome State Fault Refusal :=
  .next (requestArrives p (.lotResume lot) s)

/-- LOT_CLOSE (R42). -/
def execLotClose (p : Port) (lot : BitVec 16) (s : State) : Host.Outcome State Fault Refusal :=
  .next (requestArrives p (.lotClose lot) s)

/-- LOT_DELETE (R43). -/
def execLotDelete (p : Port) (lot : BitVec 16) (s : State) : Host.Outcome State Fault Refusal :=
  .next (requestArrives p (.lotDelete lot) s)

/-- LOT_READ (R45). -/
def execLotRead (p : Port) (lot : BitVec 16) (s : State) : Host.Outcome State Fault Refusal :=
  .next (requestArrives p (.lotRead lot) s)

/-- LOT_ATTACH (R37). -/
def execLotAttach (p : Port) (station : Byte) (lot : BitVec 16) (s : State) : Host.Outcome State Fault Refusal :=
  .next (requestArrives p (.lotAttach station lot) s)

/-- LOT_DETACH (R38). -/
def execLotDetach (p : Port) (station : Byte) (s : State) : Host.Outcome State Fault Refusal :=
  .next (requestArrives p (.lotDetach station) s)

/-- LAY_READ (R61). -/
def execLayRead (p : Port) (station : Byte) (s : State) : Host.Outcome State Fault Refusal :=
  .next (requestArrives p (.layRead station) s)

/-- STATION_RUN (R65, R111). -/
def execStationRun (p : Port) (station : Byte) (s : State) : Host.Outcome State Fault Refusal :=
  .next (requestArrives p (.stationRun station) s)

/-- STATION_STOP (R67, R112). -/
def execStationStop (p : Port) (station : Byte) (s : State) : Host.Outcome State Fault Refusal :=
  .next (requestArrives p (.stationStop station) s)

/-- BOBBIN_REGISTER (R84). -/
def execBobbinRegister (p : Port) (bobbin : BitVec 16) (capacity : BitVec 32) (s : State) : Host.Outcome State Fault Refusal :=
  .next (requestArrives p (.bobbinRegister bobbin capacity) s)

/-- BOBBIN_REMOVE (R85). -/
def execBobbinRemove (p : Port) (bobbin : BitVec 16) (s : State) : Host.Outcome State Fault Refusal :=
  .next (requestArrives p (.bobbinRemove bobbin) s)

/-- BOBBIN_ISSUE (R86). -/
def execBobbinIssue (p : Port) (station : Byte) (bobbin : BitVec 16) (s : State) : Host.Outcome State Fault Refusal :=
  .next (requestArrives p (.bobbinIssue station bobbin) s)

/-- BOBBIN_DOFF (R88). -/
def execBobbinDoff (p : Port) (station : Byte) (s : State) : Host.Outcome State Fault Refusal :=
  .next (requestArrives p (.bobbinDoff station) s)

/-- BOBBIN_MOUNT (R90). -/
def execBobbinMount (p : Port) (station : Byte) (place : Byte) (bobbin : BitVec 16) (s : State) : Host.Outcome State Fault Refusal :=
  .next (requestArrives p (.bobbinMount station place bobbin) s)

/-- BOBBIN_DISMOUNT (R91). -/
def execBobbinDismount (p : Port) (station : Byte) (place : Byte) (s : State) : Host.Outcome State Fault Refusal :=
  .next (requestArrives p (.bobbinDismount station place) s)

/-- BOBBIN_RETURN (R92). -/
def execBobbinReturn (p : Port) (bobbin : BitVec 16) (s : State) : Host.Outcome State Fault Refusal :=
  .next (requestArrives p (.bobbinReturn bobbin) s)

/-- BOBBIN_READ (R99). -/
def execBobbinRead (p : Port) (bobbin : BitVec 16) (s : State) : Host.Outcome State Fault Refusal :=
  .next (requestArrives p (.bobbinRead bobbin) s)

/-- FEED_READ (R100). -/
def execFeedRead (p : Port) (station : Byte) (s : State) : Host.Outcome State Fault Refusal :=
  .next (requestArrives p (.feedRead station) s)

/-- SEGMENT_WRITE (R104). -/
def execSegmentWrite (p : Port) (index : Byte) (rows : BitVec 16) (left : Byte) (right : Byte) (stepRows : Byte) (next : Byte) (s : State) : Host.Outcome State Fault Refusal :=
  .next (requestArrives p (.segmentWrite index rows left right stepRows next) s)

/-- SEGMENT_READ (R105). -/
def execSegmentRead (p : Port) (index : Byte) (s : State) : Host.Outcome State Fault Refusal :=
  .next (requestArrives p (.segmentRead index) s)

/-- ROW_REPORT (R113): the knot map's most significant bit is needle 0 (R174). -/
def execRowReport (p : Port) (station : Byte) (row : BitVec 24) (knots : BitVec 256) (s : State) : Host.Outcome State Fault Refusal :=
  .next (requestArrives p (.rowReport station row knots) s)

/-- ROW_REPLY with ACCEPT (R120). -/
def execRowReplyAccept (p : Port) (station : Byte) (s : State) : Host.Outcome State Fault Refusal :=
  .next (requestArrives p (.rowReply station 1) s)

/-- ROW_REPLY with ABANDON (R121). -/
def execRowReplyAbandon (p : Port) (station : Byte) (s : State) : Host.Outcome State Fault Refusal :=
  .next (requestArrives p (.rowReply station 2) s)

/-- KNOT_FAULT_READ (R122). -/
def execKnotFaultRead (p : Port) (station : Byte) (count : Byte) (s : State) : Host.Outcome State Fault Refusal :=
  .next (requestArrives p (.knotFaultRead station count) s)

/-- LOOM_READ (R123). -/
def execLoomRead (p : Port) (station : Byte) (s : State) : Host.Outcome State Fault Refusal :=
  .next (requestArrives p (.loomRead station) s)

/-- METER_READ (R136). -/
def execMeterRead (p : Port) (s : State) : Host.Outcome State Fault Refusal :=
  .next (requestArrives p .meterRead s)

/-- COILER_REPORT with CUT_DONE (R147). -/
def execCutDone (p : Port) (station : Byte) (arbor : Byte) (s : State) : Host.Outcome State Fault Refusal :=
  .next (requestArrives p (.coilerReport station arbor 1) s)

/-- COILER_REPORT with PACK_DONE (R149). -/
def execPackDone (p : Port) (station : Byte) (arbor : Byte) (s : State) : Host.Outcome State Fault Refusal :=
  .next (requestArrives p (.coilerReport station arbor 2) s)

/-- TAG_LOAD: always eight tag fields, of which the count says how many are read (R151, R166). -/
def execTagLoad (p : Port) (count : Byte) (tags : Vector (BitVec 24) 8) (s : State) : Host.Outcome State Fault Refusal :=
  .next (requestArrives p (.tagLoad count tags) s)

/-- COIL_TAKE (R153). -/
def execCoilTake (p : Port) (s : State) : Host.Outcome State Fault Refusal :=
  .next (requestArrives p .coilTake s)

/-- COILER_READ (R156). -/
def execCoilerRead (p : Port) (part : Byte) (s : State) : Host.Outcome State Fault Refusal :=
  .next (requestArrives p (.coilerRead part) s)

/-- NOTICE_READ (R183). -/
def execNoticeRead (p : Port) (count : Byte) (s : State) : Host.Outcome State Fault Refusal :=
  .next (requestArrives p (.noticeRead count) s)

/-- ROUTE_WRITE (R181). -/
def execRouteWrite (p : Port) (cls : Byte) (ports : Byte) (s : State) : Host.Outcome State Fault Refusal :=
  .next (requestArrives p (.routeWrite cls ports) s)

/-- ROUTE_READ (R181). -/
def execRouteRead (p : Port) (s : State) : Host.Outcome State Fault Refusal :=
  .next (requestArrives p .routeRead s)

/-- ATTN_ENABLE (R184). -/
def execAttnEnable (p : Port) (value : Byte) (s : State) : Host.Outcome State Fault Refusal :=
  .next (requestArrives p (.attnEnable value) s)

/-- SETTINGS_WRITE: pairs of setting number and value (R187). -/
def execSettingsWrite (p : Port) (pairs : List (Byte × BitVec 32)) (s : State) : Host.Outcome State Fault Refusal :=
  .next (requestArrives p (.settingsWrite pairs) s)

/-- SETTINGS_READ (R187). -/
def execSettingsRead (p : Port) (s : State) : Host.Outcome State Fault Refusal :=
  .next (requestArrives p .settingsRead s)

/-- CAL_WRITE: pairs of item code and value (R188). -/
def execCalWrite (p : Port) (pairs : List (Byte × BitVec 32)) (s : State) : Host.Outcome State Fault Refusal :=
  .next (requestArrives p (.calWrite pairs) s)

/-- CAL_READ (R188). -/
def execCalRead (p : Port) (s : State) : Host.Outcome State Fault Refusal :=
  .next (requestArrives p .calRead s)

/-- STORE_COMMIT (R189). -/
def execStoreCommit (p : Port) (s : State) : Host.Outcome State Fault Refusal :=
  .next (requestArrives p .storeCommit s)

end Sys2Proof.Machine
end

