-- ==== Sys2Proof/Machine/Pulses.lean ====
section
/-! DEFINITION. Pulse channels and length counting (01_stations_pulse_inputs_and_length_counting.md): raw changes,
filters, edges, and what each counted edge is handed to. -/

namespace Sys2Proof.Machine

/-- An accepted change to `level` is counted by an edge mode (R16). -/
def EdgeMode.counts (m : EdgeMode) (level : Bool) : Bool :=
  match m with
  | .off => false
  | .rise => level
  | .fall => !level
  | .both => true

/-- A counted FLY edge (R19, R21, R49). -/
def flyEdge (t : Twi) (s : State) : State := layFly t (flyStill t s)

/-- An increment in the run-length accumulator of a twisting station (R20). -/
def accumulate (t : Twi) (d : Nat) (s : State) : State :=
  if (s.station (twiSta t)).lot.isSome then s.setTwist t { s.twist t with acc := (s.twist t).acc.add d } else s

/-- The users of a capstan increment beside the accumulator and the lay monitor (R19): winding on a strander; draw and
metering on C0, between which R19 gives no order (assumption log 5). -/
def useCap (t : Twi) (d : Nat) (s : State) : State :=
  match stranderOf (twiSta t) with
  | some i => windBobbin i d s
  | none =>
    let s' := { s with choices := s.choices + 1 }
    if Config.drawsFirst s.choices then meterCap d (takeUpDraw d s') else takeUpDraw d (meterCap d s')

/-- A counted CAP edge: its increment is the station's capstan µm per count (R19). -/
def capEdge (t : Twi) (s : State) : State :=
  let d := s.settings.capstan[t]
  useCap t d (layCap t d (accumulate t d s))

/-- A counted WHL edge: its increment is the wheel µm per count (R19, R20). -/
def wheelEdge (s : State) : State :=
  let d := s.settings.wheel
  let s := if (s.station staK0).lot.isSome then
      s.setCoiler { s.coiler with wheelTally := s.coiler.wheelTally.add d }
    else s
  meterWheel d s

/-- A counted edge of a channel goes to its station's input (R15). -/
def countedEdge (c : Chan) (s : State) : State :=
  if h : c.val < 10 then
    let t : Twi := ⟨c.val / 2, by omega⟩
    if c.val % 2 = 0 then flyEdge t s else capEdge t s
  else wheelEdge s

/-- A level becomes the accepted level of a channel, and an edge if it differs from the one before (R15, R16). -/
def acceptLevel (c : Chan) (level : Bool) (s : State) : State :=
  let ch := s.channel c
  let s' := s.setChannel c { ch with level := level, pending := none }
  if ch.level ≠ level ∧ (s.settings.edge[c]).counts level then countedEdge c s' else s'

/-- A change of the raw level while the part runs (R16). -/
def rawChange (c : Chan) (level : Bool) (s : State) : State :=
  let ch := s.channel c
  let s := s.setChannel c { ch with raw := level }
  if s.settings.filter[c] = .off then acceptLevel c level s
  else if level = ch.level then s.setChannel c { ch with raw := level, pending := none }
  else s.setChannel c { ch with raw := level, pending := some (level, s.now) }

/-- RAW_INPUT_CHANGE. A level the input already has is no change; a change from supply low until the next start moves
the raw level alone (R22). -/
def execRawInputChange (c : Chan) (level : Bool) (s : State) : Host.Outcome State Fault Refusal :=
  .next (
    if (s.channel c).raw = level then s
    else if s.power = .running then rawChange c level s
    else s.setChannel c { s.channel c with raw := level })

/-- PENDING_CHANGE_ACCEPT (R16). -/
def execPendingChangeAccept (c : Chan) (s : State) : Host.Outcome State Fault Refusal :=
  .next (whenRunning (fun s =>
    match (s.channel c).pending with
    | some (level, since) => acceptLevel c level (s.advanceUs (since + (s.settings.filter[c]).us))
    | none => s) s)

end Sys2Proof.Machine
end

