-- ==== Sys2Proof/Machine/Supply.lean ====
section
/-! DEFINITION. Supply loss, the retained image and the starts (11_supply_loss_stored_settings_and_restart.md; R8, R9,
R14, R22, R46, R62, R80, R101, R125, R137, R157, R158, R185; the RESET input of R178). -/

namespace Sys2Proof.Machine

/-! ## Stopping everything (R8, R9) -/

/-- POWER or RESET on a station: a running twisting station halts at once, without a run-down. -/
def stopStation (c : Cause) (s : State) (i : Sta) : State :=
  if (s.station i).lot.isSome then
    match twistOf i with
    | some t =>
      if (s.station i).state.twistRuns then
        haltAtOnce t (if s.has i c then s else raise .fault (.station i) c.word (addCause i c s))
      else raiseCause i c s
    | none => raiseCause i c s
  else s

/-- Every strander. -/
def allStranders : List Strander := [0, 1, 2, 3]

/-- POWER or RESET on every station holding a lot, and the fills that end there (R78). DEDUCED: at a line reset too the fill
of a strander running under BOBBIN_FULL ends, is counted and may complete its lot, by R78 and R44, where R46 says that the
lot table keeps all it holds (assumption log 16). -/
def stopAll (c : Cause) (s : State) : State :=
  allStranders.foldl (fun s i => endFill i s) (allStations.foldl (stopStation c) s)

/-! ## The retained image (R190) -/

/-- A station record as the image keeps it: no binding, no retry-until. -/
def Station.saved (r : Station) : Station := { r with bound := none, retryUntilMs := none }

/-- The image of a state. -/
def State.toImage (s : State) : Image :=
  { lots := s.lots, segments := s.segments, bobbins := s.bobbins, residues := s.residues, closerShort := s.closerShort
    stations := .ofFn fun i => (s.station i).saved
    accs := .ofFn fun t => (s.twist t).acc
    looms := s.looms, coiler := { s.coiler with markMs := none }, settings := s.settings }

/-! ## Starts (R191, R192) -/

/-- The RESET pin after a start: an assertion that began before it causes nothing. -/
def ResetPin.afterStart : ResetPin → ResetPin
  | .released => .released
  | _ => .spent

/-- Every channel at a start (R22). -/
def freshChannels (s : State) : Vector Channel 11 := .ofFn fun c => .fresh (s.channel c).raw

/-- Every queue emptied, with the RESTART notice of its port (R185). -/
def restartQueues (detail : BitVec 16) (clock : BitVec 32) : Vector (List Entry) 4 :=
  .ofFn fun p => [{ cls := .restart, subject := .port p, detail := detail, repeats := 1, first := clock }]

/-- A cold start (R191). -/
def coldStart (s : State) : State :=
  { State.reset with
    pending := s.pending
    choices := s.choices
    resetPin := s.resetPin.afterStart
    channels := freshChannels s
    settings := if s.store.valid then s.store.copy else .default
    store := s.store
    imageValid := s.imageValid
    image := s.image }

/-- A warm start from the image (R191). -/
def warmStart (s : State) : State :=
  let im := s.image
  { State.reset with
    pending := s.pending
    choices := s.choices
    resetPin := s.resetPin.afterStart
    stations := im.stations
    twists := .ofFn fun t => .fresh im.accs[t]
    channels := freshChannels s
    queues := restartQueues wordWarmStart 0
    lots := im.lots
    segments := im.segments
    bobbins := im.bobbins
    residues := im.residues
    closerShort := im.closerShort
    looms := im.looms
    coiler := im.coiler
    settings := im.settings
    store := s.store
    commit := if s.store.valid then none else some { snapshot := im.settings, sender := none }
    imageValid := false
    image := im }

/-- What a line reset clears of a channel, a station record, a twisting station (R14, R22, R62, R80). -/
def Channel.lineReset (c : Channel) : Channel := { c with pending := none }

/-- A line reset (R192). -/
def takeLineReset (s : State) : State :=
  let s := stopAll .reset s
  { s with
    resetPin := .spent
    stations := .ofFn fun i => (s.station i).saved
    twists := .ofFn fun t => .fresh (s.twist t).acc
    channels := .ofFn fun c => (s.channel c).lineReset
    ports := .replicate 4 (.fresh s.nowMs)
    queues := restartQueues wordLineReset s.worksClock
    meter := .cold
    coiler := { s.coiler with markMs := none } }

/-! ## The commands -/

/-- The receiver, the held frame and the answer of a port at supply low (R173). -/
def PortUnit.cutOff (u : PortUnit) : PortUnit := { u with asm := .hunt, held := none, answer := none }

/-- The save begins (R190). -/
def beginSave (s : State) : State :=
  let s := discardSlip (stopAll .power s)
  let s := s.setCoiler { s.coiler with markMs := none }
  { s with
    power := .saving
    supplyGood := false
    commit := none
    ports := .ofFn fun p => (s.port p).cutOff
    imageValid := false
    image := s.toImage }

/-- SUPPLY_LOW. -/
def execSupplyLow (s : State) : Host.Outcome State Fault Refusal :=
  .next (match s.power with
    | .running => beginSave s
    | .saving | .saved => { s with supplyGood := false }
    | .off => s)

/-- SAVE_COMPLETE. -/
def execSaveComplete (s : State) : Host.Outcome State Fault Refusal :=
  .next (match s.power with
    | .saving =>
      if s.supplyGood then warmStart { s with imageValid := true } else { s with imageValid := true, power := .saved }
    | _ => s)

/-- SUPPLY_RECOVERY. -/
def execSupplyRecovery (s : State) : Host.Outcome State Fault Refusal :=
  .next (match s.power with
    | .saved => warmStart s
    | .saving | .running => { s with supplyGood := true }
    | .off => s)

/-- POWER_UP. -/
def execPowerUp (s : State) : Host.Outcome State Fault Refusal :=
  .next (match s.power with
    | .off => if s.imageValid then warmStart s else coldStart s
    | _ => s)

/-- POWER_FAILURE. -/
def execPowerFailure (s : State) : Host.Outcome State Fault Refusal :=
  .next { s with power := .off }

/-- RESET_ASSERT: between a start and supply low the 1 ms begins; at other times the assertion is ignored (R178, R190). -/
def execResetAssert (s : State) : Host.Outcome State Fault Refusal :=
  .next (match s.resetPin with
    | .released => { s with resetPin := if s.power = .running then .held s.now else .spent }
    | _ => s)

/-- LINE_RESET. -/
def execLineReset (s : State) : Host.Outcome State Fault Refusal :=
  .next (whenRunning (fun s =>
    match s.resetPin with
    | .held t => takeLineReset (s.advanceUs (t + Config.resetHoldUs))
    | _ => s) s)

/-- RESET_RELEASE. -/
def execResetRelease (s : State) : Host.Outcome State Fault Refusal :=
  .next { s with resetPin := .released }

end Sys2Proof.Machine
end

