-- ==== Sys2Proof/Machine/Dispatch.lean ====
section
/-! DEFINITION. One arm per command: each calls that command's own meaning. -/

namespace Sys2Proof.Machine

def exec (i : Instr) (s : State) : Host.Outcome State Fault Refusal :=
  match i with
  | .stationRead p station => Sys2Proof.Machine.execStationRead p station s
  | .faultClear p station => Sys2Proof.Machine.execFaultClear p station s
  | .faultClearAll p => Sys2Proof.Machine.execFaultClearAll p s
  | .stationBind p station => Sys2Proof.Machine.execStationBind p station s
  | .stationUnbind p station => Sys2Proof.Machine.execStationUnbind p station s
  | .portStatus p => Sys2Proof.Machine.execPortStatus p s
  | .unknownRequest p kind payload => Sys2Proof.Machine.execUnknownRequest p kind payload s
  | .lotCreate p lot kind => Sys2Proof.Machine.execLotCreate p lot kind s
  | .lotWrite p lot pairs => Sys2Proof.Machine.execLotWrite p lot pairs s
  | .lotCheck p lot value => Sys2Proof.Machine.execLotCheck p lot value s
  | .lotReopen p lot => Sys2Proof.Machine.execLotReopen p lot s
  | .lotHold p lot => Sys2Proof.Machine.execLotHold p lot s
  | .lotResume p lot => Sys2Proof.Machine.execLotResume p lot s
  | .lotClose p lot => Sys2Proof.Machine.execLotClose p lot s
  | .lotDelete p lot => Sys2Proof.Machine.execLotDelete p lot s
  | .lotRead p lot => Sys2Proof.Machine.execLotRead p lot s
  | .lotAttach p station lot => Sys2Proof.Machine.execLotAttach p station lot s
  | .lotDetach p station => Sys2Proof.Machine.execLotDetach p station s
  | .layRead p station => Sys2Proof.Machine.execLayRead p station s
  | .stationRun p station => Sys2Proof.Machine.execStationRun p station s
  | .stationStop p station => Sys2Proof.Machine.execStationStop p station s
  | .bobbinRegister p bobbin capacity => Sys2Proof.Machine.execBobbinRegister p bobbin capacity s
  | .bobbinRemove p bobbin => Sys2Proof.Machine.execBobbinRemove p bobbin s
  | .bobbinIssue p station bobbin => Sys2Proof.Machine.execBobbinIssue p station bobbin s
  | .bobbinDoff p station => Sys2Proof.Machine.execBobbinDoff p station s
  | .bobbinMount p station place bobbin => Sys2Proof.Machine.execBobbinMount p station place bobbin s
  | .bobbinDismount p station place => Sys2Proof.Machine.execBobbinDismount p station place s
  | .bobbinReturn p bobbin => Sys2Proof.Machine.execBobbinReturn p bobbin s
  | .bobbinRead p bobbin => Sys2Proof.Machine.execBobbinRead p bobbin s
  | .feedRead p station => Sys2Proof.Machine.execFeedRead p station s
  | .segmentWrite p index rows left right stepRows next => Sys2Proof.Machine.execSegmentWrite p index rows left right stepRows next s
  | .segmentRead p index => Sys2Proof.Machine.execSegmentRead p index s
  | .rowReport p station row knots => Sys2Proof.Machine.execRowReport p station row knots s
  | .rowReplyAccept p station => Sys2Proof.Machine.execRowReplyAccept p station s
  | .rowReplyAbandon p station => Sys2Proof.Machine.execRowReplyAbandon p station s
  | .knotFaultRead p station count => Sys2Proof.Machine.execKnotFaultRead p station count s
  | .loomRead p station => Sys2Proof.Machine.execLoomRead p station s
  | .meterRead p => Sys2Proof.Machine.execMeterRead p s
  | .cutDone p station arbor => Sys2Proof.Machine.execCutDone p station arbor s
  | .packDone p station arbor => Sys2Proof.Machine.execPackDone p station arbor s
  | .tagLoad p count tags => Sys2Proof.Machine.execTagLoad p count tags s
  | .coilTake p => Sys2Proof.Machine.execCoilTake p s
  | .coilerRead p part => Sys2Proof.Machine.execCoilerRead p part s
  | .noticeRead p count => Sys2Proof.Machine.execNoticeRead p count s
  | .routeWrite p cls ports => Sys2Proof.Machine.execRouteWrite p cls ports s
  | .routeRead p => Sys2Proof.Machine.execRouteRead p s
  | .attnEnable p value => Sys2Proof.Machine.execAttnEnable p value s
  | .settingsWrite p pairs => Sys2Proof.Machine.execSettingsWrite p pairs s
  | .settingsRead p => Sys2Proof.Machine.execSettingsRead p s
  | .calWrite p pairs => Sys2Proof.Machine.execCalWrite p pairs s
  | .calRead p => Sys2Proof.Machine.execCalRead p s
  | .storeCommit p => Sys2Proof.Machine.execStoreCommit p s
  | .storeCommitCompletion => Sys2Proof.Machine.execStoreCommitCompletion s
  | .byteReceived p byte stopBit => Sys2Proof.Machine.execByteReceived p byte stopBit s
  | .byteGapExpiry p => Sys2Proof.Machine.execByteGapExpiry p s
  | .answerComplete p => Sys2Proof.Machine.execAnswerComplete p s
  | .silenceExpiry p => Sys2Proof.Machine.execSilenceExpiry p s
  | .rawInputChange ch level => Sys2Proof.Machine.execRawInputChange ch level s
  | .pendingChangeAccept ch => Sys2Proof.Machine.execPendingChangeAccept ch s
  | .windowTimeLimitExpiry t => Sys2Proof.Machine.execWindowTimeLimitExpiry t s
  | .stillnessExpiry t => Sys2Proof.Machine.execStillnessExpiry t s
  | .retryWaitExpiry sta => Sys2Proof.Machine.execRetryWaitExpiry sta s
  | .runUpLong t => Sys2Proof.Machine.execRunUpLong t s
  | .runDownLong t => Sys2Proof.Machine.execRunDownLong t s
  | .markPulseEnd => Sys2Proof.Machine.execMarkPulseEnd s
  | .supplyLow => Sys2Proof.Machine.execSupplyLow s
  | .saveComplete => Sys2Proof.Machine.execSaveComplete s
  | .supplyRecovery => Sys2Proof.Machine.execSupplyRecovery s
  | .powerUp => Sys2Proof.Machine.execPowerUp s
  | .resetAssert => Sys2Proof.Machine.execResetAssert s
  | .lineReset => Sys2Proof.Machine.execLineReset s
  | .powerFailure => Sys2Proof.Machine.execPowerFailure s
  | .resetRelease => Sys2Proof.Machine.execResetRelease s

end Sys2Proof.Machine
end

