-- ==== Sys2Proof/Safety.lean ====
section
/-! DEFINITION. What counts as a safe run, and the notions the claims are stated in: the request a command sends, a port
that listens, a reply, the bytes of a frame on a link, and the invariants of the records. -/

namespace Sys2Proof.Safety

open Sys2Proof.Machine

/-! ## Commands -/

/-- The port and the request of a request command (R165). A frame of an unknown kind holds no request. -/
def requestOf : Instr → Option (Port × Request)
  | .stationRead p station => some (p, (.stationRead station))
  | .faultClear p station => some (p, (.faultClear station))
  | .faultClearAll p => some (p, (.faultClear 0xFF))
  | .stationBind p station => some (p, (.stationBind station))
  | .stationUnbind p station => some (p, (.stationUnbind station))
  | .portStatus p => some (p, .portStatus)
  | .lotCreate p lot kind => some (p, (.lotCreate lot kind))
  | .lotWrite p lot pairs => some (p, (.lotWrite lot pairs))
  | .lotCheck p lot value => some (p, (.lotCheck lot value))
  | .lotReopen p lot => some (p, (.lotReopen lot))
  | .lotHold p lot => some (p, (.lotHold lot))
  | .lotResume p lot => some (p, (.lotResume lot))
  | .lotClose p lot => some (p, (.lotClose lot))
  | .lotDelete p lot => some (p, (.lotDelete lot))
  | .lotRead p lot => some (p, (.lotRead lot))
  | .lotAttach p station lot => some (p, (.lotAttach station lot))
  | .lotDetach p station => some (p, (.lotDetach station))
  | .layRead p station => some (p, (.layRead station))
  | .stationRun p station => some (p, (.stationRun station))
  | .stationStop p station => some (p, (.stationStop station))
  | .bobbinRegister p bobbin capacity => some (p, (.bobbinRegister bobbin capacity))
  | .bobbinRemove p bobbin => some (p, (.bobbinRemove bobbin))
  | .bobbinIssue p station bobbin => some (p, (.bobbinIssue station bobbin))
  | .bobbinDoff p station => some (p, (.bobbinDoff station))
  | .bobbinMount p station place bobbin => some (p, (.bobbinMount station place bobbin))
  | .bobbinDismount p station place => some (p, (.bobbinDismount station place))
  | .bobbinReturn p bobbin => some (p, (.bobbinReturn bobbin))
  | .bobbinRead p bobbin => some (p, (.bobbinRead bobbin))
  | .feedRead p station => some (p, (.feedRead station))
  | .segmentWrite p index rows left right stepRows next => some (p, (.segmentWrite index rows left right stepRows next))
  | .segmentRead p index => some (p, (.segmentRead index))
  | .rowReport p station row knots => some (p, (.rowReport station row knots))
  | .rowReplyAccept p station => some (p, (.rowReply station 1))
  | .rowReplyAbandon p station => some (p, (.rowReply station 2))
  | .knotFaultRead p station count => some (p, (.knotFaultRead station count))
  | .loomRead p station => some (p, (.loomRead station))
  | .meterRead p => some (p, .meterRead)
  | .cutDone p station arbor => some (p, (.coilerReport station arbor 1))
  | .packDone p station arbor => some (p, (.coilerReport station arbor 2))
  | .tagLoad p count tags => some (p, (.tagLoad count tags))
  | .coilTake p => some (p, .coilTake)
  | .coilerRead p part => some (p, (.coilerRead part))
  | .noticeRead p count => some (p, (.noticeRead count))
  | .routeWrite p cls ports => some (p, (.routeWrite cls ports))
  | .routeRead p => some (p, .routeRead)
  | .attnEnable p value => some (p, (.attnEnable value))
  | .settingsWrite p pairs => some (p, (.settingsWrite pairs))
  | .settingsRead p => some (p, .settingsRead)
  | .calWrite p pairs => some (p, (.calWrite pairs))
  | .calRead p => some (p, .calRead)
  | .storeCommit p => some (p, .storeCommit)
  | .unknownRequest _ _ _ => none
  | .storeCommitCompletion => none
  | .byteReceived _ _ _ => none
  | .byteGapExpiry _ => none
  | .answerComplete _ => none
  | .silenceExpiry _ => none
  | .rawInputChange _ _ => none
  | .pendingChangeAccept _ => none
  | .windowTimeLimitExpiry _ => none
  | .stillnessExpiry _ => none
  | .retryWaitExpiry _ => none
  | .runUpLong _ => none
  | .runDownLong _ => none
  | .markPulseEnd => none
  | .supplyLow => none
  | .saveComplete => none
  | .supplyRecovery => none
  | .powerUp => none
  | .resetAssert => none
  | .lineReset => none
  | .powerFailure => none
  | .resetRelease => none

/-- The commands that have no effect from supply low until the next start (R22, R173, R190): every frame, byte and link
event, every timer, the completion of a commit, and a line reset. -/
def needsRunningPart (c : Instr) : Bool :=
  match c with
  | .rawInputChange _ _ | .supplyLow | .saveComplete | .supplyRecovery | .powerUp | .resetAssert | .powerFailure
  | .resetRelease => false
  | _ => true

/-! ## Ports and replies -/

/-- A request that arrives on the port is taken at once (R162): the part runs and no answer is in progress. -/
abbrev Listens (p : Port) (s : State) : Prop := s.power = .running ∧ (s.port p).answer = none

/-- `p` is the bound port of the station. -/
abbrev Steers (p : Port) (i : Sta) (s : State) : Prop := (s.station i).bound = some p

/-- A station index as a frame carries it. -/
def staByte (i : Sta) : Byte := BitVec.ofNat 8 i.val

/-- The command's request is taken on port `p` and answered with this kind, code and payload, and its effect leaves `u`:
the next state is `u` but for the ports, where on `p` the answer is in progress since now with the port status built
after the effect, its link is LIVE, its flags are clear (R158, R162, R163). -/
def Answers (p : Port) (kind : Byte) (code : Code) (payload : List Byte) (c : Instr) (s u : State) : Prop :=
  ∃ t, exec c s = .next t ∧ t = { u with ports := t.ports } ∧
    t.port p =
      { s.port p with
        answer := some
          { kind := kind, code := code, payload := payload, startUs := s.now
            status := statusByte (!(u.queue p).isEmpty) (s.port p).frameErr (u.port p).noticeOvf u.commit.isSome }
        live := true
        lastValidMs := s.nowMs
        frameErr := false
        noticeOvf := false } ∧
    ∀ q, q ≠ p → t.port q = u.port q

/-- A command whose request is answered and has no effect beside the arrival of its frame. -/
def OnlyAnswers (p : Port) (kind : Byte) (code : Code) (payload : List Byte) (c : Instr) (s : State) : Prop :=
  Answers p kind code payload c s (validArrival p s)

/-! ## Stations -/

/-- A station's record written; a STATE notice is raised where its state changes (R1). -/
def writeStation (i : Sta) (r : Station) (s : State) : State :=
  if r.state = (s.station i).state then s.setStation i r
  else raise .state (.station i) r.state.word (s.setStation i r)

/-- A station's record after removals that leave the cause set `x`: a HALTED station whose set is empty goes to IDLE without
a lot, to ACTIVE on K0 and to STANDBY otherwise (R7). -/
def emptied (i : Sta) (x : BitSet 12) (r : Station) : Station :=
  if x = 0 ∧ r.state = .halted then
    { r with causes := x, state := if r.lot = none then .idle else if i = staK0 then .active else .standby }
  else { r with causes := x }

/-- A station's record after FAULT_CLEAR (R10): the conditional causes stay, and LAY_SEVERE while retry-until is present. -/
def cleared (i : Sta) (r : Station) : Station :=
  let x := r.causes &&& (if r.retryUntilMs.isSome then 0xFE1 else 0xFE0)
  if x = r.causes then r else emptied i x r

/-! ## Lots and bobbins -/

/-- Slot `k` holds the lot `l`, and no slot before it holds a lot of its number. -/
abbrev HasLot (s : State) (k : Slot) (l : Lot) : Prop := s.slotOf l.number = some k ∧ s.lots[k] = some l

/-- The bobbin table with one record written. -/
def withBobbin (b : Bobbin) (bs : List Bobbin) : List Bobbin := bs.map fun x => if x.id = b.id then b else x

/-- The bobbins whose fill ends when every strander is stopped at once (R78): each strander's WINDING bobbin, where the
strander holds BOBBIN_FULL, in the order of the stranders. -/
def fillsEnding (s : State) : List Bobbin :=
  ([0, 1, 2, 3] : List Strander).filterMap fun j =>
    match s.bobbinAt (.winding j) with
    | some b => if b.state = .winding ∧ hasCause (s.station (strSta j)).causes .bobbinFull = true then some b else none
    | none => none

/-- A lot's record after the end of the fill of one of its bobbins (R78, R44). -/
def filled (l : Lot) (b : Bobbin) : Lot :=
  { l with
    produced := min 4294967295 (l.produced + b.wound.mm)
    done := l.done + 1
    state := if (l.state = .active ∨ l.state = .held) ∧ l.done + 1 = l.build.ordered then .complete else l.state }

/-- What the ends of fill at a stop of every strander leave of `s` (R78, R44): each ending bobbin is FULL, out of its place
and without its fill point, and no other bobbin is touched; each lot has counted its own in order, and one that completes so
has LOT_END on every station of its stations set but K0, to which it is not admissible. -/
def FillsEnd (s t : State) : Prop :=
  t.bobbins = s.bobbins.map (fun b =>
    if b ∈ fillsEnding s then { b with state := .full, place := none, fillPoint := none } else b) ∧
  (∀ k : Slot, s.lots[k] = none → t.lots[k] = none) ∧
  ∀ k l, HasLot s k l →
    let l' := ((fillsEnding s).filter fun b => b.lot = some l.number).foldl filled l
    t.lots[k] = some l' ∧
      (l'.state ≠ l.state → ∀ i, l.stations.getLsbD i.val = true → i ≠ staK0 →
        hasCause (t.station i).causes .lotEnd = true)

/-! ## Links -/

/-- The bytes of a request frame after its sync byte, without the CRC (R159). -/
def frameBody (f : Frame) : List Byte := f.kind :: BitVec.ofNat 8 f.payload.length :: f.payload

/-- The bytes of a request frame on the link (R159, R160). -/
def frameBytes (f : Frame) : List Byte := 0xC5 :: frameBody f ++ [crc8 (frameBody f)]

/-- Bytes with their stop bits arrive on a link, one command each. -/
def feed (p : Port) : List Byte → State → Host.Outcome State Fault Refusal
  | [], s => .next s
  | b :: rest, s =>
    match exec (.byteReceived p b true) s with
    | .next s' => feed p rest s'
    | other => other

/-! ## Invariants -/

/-- A notice queue is in order (R182): at most 32 entries, no two with the same class and subject, repeat counts 1 to
255. -/
def QueueOk (q : List Entry) : Prop :=
  q.length ≤ 32 ∧ q.Pairwise (fun a b => ¬(a.cls = b.cls ∧ a.subject = b.subject)) ∧
    ∀ e ∈ q, 1 ≤ e.repeats ∧ e.repeats ≤ 255

/-- Every notice queue is in order. -/
def NoticesOk (s : State) : Prop := ∀ p, QueueOk (s.queue p)

/-- A bobbin record is in order (R81, R83): drawn is at most wound, wound at most the capacity, and nothing is drawn before
the first mount. -/
def BobbinOk (b : Bobbin) : Prop :=
  1 ≤ b.id ∧ b.id ≤ 65535 ∧ 1000 ≤ b.capacity ∧ b.capacity ≤ 100000000 ∧
    b.drawn.total ≤ b.wound.total ∧ b.wound.total ≤ b.capacity * 1000 ∧
    (b.state = .spare ∨ b.state = .winding ∨ b.state = .full → b.drawn.total = 0)

/-- The bobbin table is in order (R81): at most 64 records, in ascending id order, so that no two hold one id. -/
def BobbinTableOk (bs : List Bobbin) : Prop :=
  bs.length ≤ 64 ∧ bs.Pairwise (fun a b => a.id < b.id) ∧ ∀ b ∈ bs, BobbinOk b

/-- The bobbin table and its saved copy are in order. -/
def BobbinsOk (s : State) : Prop := BobbinTableOk s.bobbins ∧ BobbinTableOk s.image.bobbins

/-- The construction fields of a lot are in their ranges, the slowdown distance within half the coil length (R24 to R26,
R31). -/
def BuildOk : Build → Prop
  | .strand c =>
    20 ≤ c.lay ∧ c.lay ≤ 60000 ∧ 5 ≤ c.tol ∧ c.tol ≤ 250 ∧ 4 ≤ c.turns ∧ c.turns ≤ 250 ∧ 1 ≤ c.fill ∧ c.fill ≤ 60000 ∧
      1 ≤ c.ordered ∧ c.ordered ≤ 999
  | .rope c =>
    20 ≤ c.lay ∧ c.lay ≤ 60000 ∧ 5 ≤ c.tol ∧ c.tol ≤ 250 ∧ 4 ≤ c.turns ∧ c.turns ≤ 250 ∧ c.strandLot ≤ 65535 ∧
      (c.strands = 3 ∨ c.strands = 4) ∧ 1000 ≤ c.takeUp ∧ c.takeUp ≤ 1500 ∧ 1 ≤ c.coilLen ∧ c.coilLen ≤ 20000 ∧
      1 ≤ c.ordered ∧ c.ordered ≤ 999 ∧ c.slow ≤ 65535 ∧ c.slow ≤ c.coilLen * 500 ∧ c.mark ≤ 1000 ∧ 1 ≤ c.slip ∧
      c.slip ≤ 100
  | .net c =>
    c.strandLot ≤ 65535 ∧ 10 ≤ c.mesh ∧ c.mesh ≤ 2000 ∧ c.knot ≤ 500 ∧ c.first ≤ 255 ∧ c.last ≤ 255 ∧ 1 ≤ c.ordered ∧
      c.ordered ≤ 255 ∧ c.missed ≤ 255

/-- A lot table is in order: no two records hold one lot number, every number is 1 to 65,535 (R23), every construction field
is in its range, and no more is started than ordered (R27, R31). -/
def LotTableOk (lots : Vector (Option Lot) 16) : Prop :=
  (∀ (j k : Slot) (a b : Lot), lots[j] = some a → lots[k] = some b → a.number = b.number → j = k) ∧
    ∀ (k : Slot) (a : Lot), lots[k] = some a →
      1 ≤ a.number ∧ a.number ≤ 65535 ∧ BuildOk a.build ∧ a.started ≤ a.build.ordered

/-- The lot table and its saved copy are in order. -/
def LotsOk (s : State) : Prop := LotTableOk s.lots ∧ LotTableOk s.image.lots

/-- The numeric settings of a works settings record are in their ranges (R17, R186). -/
def SettingsInRange (c : Settings) : Prop :=
  1 ≤ c.windowLimit ∧ c.windowLimit ≤ 60 ∧ 1 ≤ c.runUpLimit ∧ c.runUpLimit ≤ 240 ∧ 1 ≤ c.runDownLimit ∧
    c.runDownLimit ≤ 240 ∧ c.lowMark ≤ 1000000 ∧ (∀ l : Loom, 16 ≤ c.needles[l] ∧ c.needles[l] ≤ 256) ∧ c.tagsLow ≤ 32 ∧
    1 ≤ c.listHigh ∧ c.listHigh ≤ 12 ∧ (∀ t : Twi, 1 ≤ c.capstan[t] ∧ c.capstan[t] ≤ 65535) ∧
    (∀ t : Twi, 1 ≤ c.flyer[t] ∧ c.flyer[t] ≤ 255) ∧ 1 ≤ c.wheel ∧ c.wheel ≤ 65535

/-- The settings, the store's copy, the saved copy and the snapshot of a commit in flight are in range. -/
def SettingsOk (s : State) : Prop :=
  SettingsInRange s.settings ∧ SettingsInRange s.store.copy ∧ SettingsInRange s.image.settings ∧
    ∀ x, s.commit = some x → SettingsInRange x.snapshot

/-- The states a station of a kind may be in (R1). -/
def stateOfKind (k : StationKind) (st : RunState) : Bool :=
  match k, st with
  | _, .idle | _, .halted => true
  | .coiler, .active => true
  | .loom, .standby | .loom, .knotting | .loom, .rowHold => true
  | .strander, .standby | .strander, .runUp | .strander, .steady | .strander, .runDown => true
  | .closer, .standby | .closer, .runUp | .closer, .steady | .closer, .runDown => true
  | _, _ => false

/-- A station record is in order (R1, R5 to R7): its state is one of its kind; without a lot it is IDLE with an empty cause
set and HALTED otherwise; with a lot it is not IDLE, it is not HALTED with an empty set, and in STANDBY and in the states
that release the HALT line its set is empty. -/
def StationOk (i : Sta) (r : Station) : Prop :=
  stateOfKind (kindOf i) r.state = true ∧
    (r.lot = none → r.state = if r.causes = 0 then .idle else .halted) ∧
    (r.lot ≠ none → r.state ≠ .idle ∧ (r.state = .halted → r.causes ≠ 0) ∧
      (r.state = .standby ∨ r.state = .runUp ∨ r.state = .steady ∨ r.state = .knotting ∨ r.state = .active →
        r.causes = 0))

/-- Every station record and its saved copy are in order. -/
def StationsOk (s : State) : Prop := ∀ i : Sta, StationOk i (s.station i) ∧ StationOk i s.image.stations[i]

/-- C0 carries COILER_HALT exactly while K0 is HALTED and C0 holds a lot (R4). -/
def CoilerHaltExact (stations : Vector Station 8) : Prop :=
  hasCause stations[staC0].causes .coilerHalt = true ↔
    stations[staK0].state = .halted ∧ stations[staC0].lot ≠ none

/-- The same of the stations and of their saved copies. -/
def CoilerHaltOk (s : State) : Prop := CoilerHaltExact s.stations ∧ CoilerHaltExact s.image.stations

/-- The lists of the coiling unit are in order (R150, R152). -/
def CoilerListsOk (k : Coiler) : Prop :=
  k.tags.length ≤ 32 ∧ (∀ t ∈ k.tags, 1 ≤ t ∧ t ≤ 16777215) ∧ k.outbound.length ≤ 12

/-- The lists of the coiling unit and of its saved copy are in order. -/
def ListsOk (s : State) : Prop := CoilerListsOk s.coiler ∧ CoilerListsOk s.image.coiler

/-- The tags of a coiling unit: in its free tag list, on its arbors, in its outbound coil list. -/
def tagsOf (k : Coiler) : List Nat :=
  k.tags ++ ([k.a, k.b].filterMap Arbor.coil? ++ k.outbound).filterMap Coil.tag

/-- No tag stands in two places, now or in the saved copy (R150). -/
def TagsOk (s : State) : Prop := (tagsOf s.coiler).Nodup ∧ (tagsOf s.image.coiler).Nodup

/-- An arbor is PACKING or POSTING. -/
def packed (r : Arbor) : Bool :=
  match r with
  | .busy .packing _ | .busy .posting _ => true
  | _ => false

/-- The arbors share the work (R127; 08_coiling_and_packing.md, How the two arbors share the work): at most one receives
rope, at most one is PACKING or POSTING, and while one is CUTTING C0 holds CUT_STOP. -/
def ArborsShare (k : Coiler) (stations : Vector Station 8) : Prop :=
  ¬(k.a.receives = true ∧ k.b.receives = true) ∧ ¬(packed k.a = true ∧ packed k.b = true) ∧
    (k.a.isCutting = true ∨ k.b.isCutting = true → hasCause stations[staC0].causes .cutStop = true)

/-- The arbors of the part and of its saved copy share the work. -/
def ArborsOk (s : State) : Prop := ArborsShare s.coiler s.stations ∧ ArborsShare s.image.coiler s.image.stations

/-- A state of a safe run: every record is in order. -/
def SafeState (s : State) : Prop :=
  NoticesOk s ∧ BobbinsOk s ∧ LotsOk s ∧ SettingsOk s ∧ StationsOk s ∧ CoilerHaltOk s ∧ ListsOk s ∧ TagsOk s ∧ ArborsOk s

end Sys2Proof.Safety
end

