-- ==== Sys2Proof/WellFormed.lean ====
section
/-! DEFINITION. Well-formed commands: those whose fields a frame of that command can carry (R159, R165, R166). Every
other condition on a field is a check that the part itself makes and answers. -/

namespace Sys2Proof

/-- A request of pairs carries 1 to 12 of them (R165: 7 to 62 bytes of LOT_WRITE, 5 to 60 of the settings writes). -/
def pairCountOk (pairs : List (Byte × BitVec 32)) : Bool := 1 ≤ pairs.length && pairs.length ≤ 12

/-- Whether a command is well formed. FAULT_CLEAR naming one station does not carry 0xFF, which is ALL; a frame of an
unknown kind has a kind outside the table of R165 and at most 64 payload bytes. -/
def Instr.wf : Instr → Bool
  | .faultClear _ station => station != 0xFF
  | .unknownRequest _ kind payload =>
    (Machine.lengthAllowed kind.toNat payload.length).isNone && payload.length ≤ Config.maxPayload
  | .lotWrite _ _ pairs => pairCountOk pairs
  | .settingsWrite _ pairs => pairCountOk pairs
  | .calWrite _ pairs => pairCountOk pairs
  | .stationRead _ _ => true
  | .faultClearAll _ => true
  | .stationBind _ _ => true
  | .stationUnbind _ _ => true
  | .portStatus _ => true
  | .lotCreate _ _ _ => true
  | .lotCheck _ _ _ => true
  | .lotReopen _ _ => true
  | .lotHold _ _ => true
  | .lotResume _ _ => true
  | .lotClose _ _ => true
  | .lotDelete _ _ => true
  | .lotRead _ _ => true
  | .lotAttach _ _ _ => true
  | .lotDetach _ _ => true
  | .layRead _ _ => true
  | .stationRun _ _ => true
  | .stationStop _ _ => true
  | .bobbinRegister _ _ _ => true
  | .bobbinRemove _ _ => true
  | .bobbinIssue _ _ _ => true
  | .bobbinDoff _ _ => true
  | .bobbinMount _ _ _ _ => true
  | .bobbinDismount _ _ _ => true
  | .bobbinReturn _ _ => true
  | .bobbinRead _ _ => true
  | .feedRead _ _ => true
  | .segmentWrite _ _ _ _ _ _ _ => true
  | .segmentRead _ _ => true
  | .rowReport _ _ _ _ => true
  | .rowReplyAccept _ _ => true
  | .rowReplyAbandon _ _ => true
  | .knotFaultRead _ _ _ => true
  | .loomRead _ _ => true
  | .meterRead _ => true
  | .cutDone _ _ _ => true
  | .packDone _ _ _ => true
  | .tagLoad _ _ _ => true
  | .coilTake _ => true
  | .coilerRead _ _ => true
  | .noticeRead _ _ => true
  | .routeWrite _ _ _ => true
  | .routeRead _ => true
  | .attnEnable _ _ => true
  | .settingsRead _ => true
  | .calRead _ => true
  | .storeCommit _ => true
  | .storeCommitCompletion => true
  | .byteReceived _ _ _ => true
  | .byteGapExpiry _ => true
  | .answerComplete _ => true
  | .silenceExpiry _ => true
  | .rawInputChange _ _ => true
  | .pendingChangeAccept _ => true
  | .windowTimeLimitExpiry _ => true
  | .stillnessExpiry _ => true
  | .retryWaitExpiry _ => true
  | .runUpLong _ => true
  | .runDownLong _ => true
  | .markPulseEnd => true
  | .supplyLow => true
  | .saveComplete => true
  | .supplyRecovery => true
  | .powerUp => true
  | .resetAssert => true
  | .lineReset => true
  | .powerFailure => true
  | .resetRelease => true

end Sys2Proof
end

