-- ==== Sys2Proof/Certificates/Slice0/Obligations.lean ====
section
/-! DEFINITION. The statements for the provers. Throughout, `validArrival p s` is the state in which the request's frame
has arrived (R169, R170): it is `s` but for the port's link state and last valid time and, on a port that was SILENT, a
LINK notice. -/

open Sys2Proof Sys2Proof.Machine Sys2Proof.Safety

/-! ## Steps, links and answers -/

/-- A step carries out the command at the front of the queue, with the queue's rest. The queue is the model's own
(assumption log 5). -/
def Obligations.StepRunsTheFrontCommand : Prop :=
  ∀ (c : Instr) (s : State), step { s with pending := c :: s.pending } = exec c s

/-- Every command ends in a next state and leaves the queue of waiting commands alone. That no command stops the part is
read from the spec (assumption log 8). -/
def Obligations.EveryCommandGoesOn : Prop :=
  ∀ (c : Instr) (s : State), ∃ t, exec c s = .next t ∧ t.pending = s.pending

/-- The bytes of a request's frame, one after the other from HUNT, do what the request's command does (R159, R160, R165,
R166, R174). That a request's command stands for the arrival of its whole frame is the model's choice (assumption log 1).
-/
def Obligations.FrameBytesAreTheRequest : Prop :=
  ∀ (c : Instr) (p : Port) (r : Request) (s : State),
    requestOf c = some (p, r) → r.lengthOk = true → s.power = .running → (s.port p).asm = .hunt →
      feed p (frameBytes r.frame) s = exec c (s.setPort p { s.port p with byteUs := s.now })

/-- The receiver in HUNT and at each fault of a frame (R160, R161). The clock after the gap's expiry is the model's choice
(assumption log 6). -/
def Obligations.ReceiverDiscardsBrokenFrames : Prop :=
  ∀ (p : Port) (s : State), s.power = .running →
    let u := s.port p
    let discarded := fun us : Nat => { s with now := us }.setPort p { u with asm := .hunt, frameErr := true }
    (u.asm = .hunt →
      exec (.byteReceived p 0xC5 true) s = .next (s.setPort p { u with asm := .kind 0xFF, byteUs := s.now }) ∧
        (∀ b : Byte, b ≠ 0xC5 → exec (.byteReceived p b true) s = .next s) ∧
        (∀ b : Byte, exec (.byteReceived p b false) s = .next s) ∧ exec (.byteGapExpiry p) s = .next s) ∧
    (u.asm ≠ .hunt →
      (∀ b : Byte, exec (.byteReceived p b false) s = .next (discarded s.now)) ∧
        exec (.byteGapExpiry p) s = .next (discarded (max s.now (u.byteUs + 2000)))) ∧
    (∀ (crc kind b : Byte), u.asm = .length crc kind → 64 < b.toNat →
      exec (.byteReceived p b true) s = .next (discarded s.now)) ∧
    ∀ (crc kind b : Byte) (got : List Byte), u.asm = .check crc kind got → crc8Byte crc b ≠ 0 →
      exec (.byteReceived p b true) s = .next (discarded s.now)

/-- While an answer is in progress a frame is held, and a held frame is overwritten with FRAME_ERR set; when the answer's
last byte has gone the held frame is taken (R162). The clock after the last byte, in whole µs, is the model's choice
(assumption log 6). -/
def Obligations.AnswersGoInOrder : Prop :=
  (∀ (c : Instr) (p : Port) (r : Request) (s : State),
    requestOf c = some (p, r) → r.lengthOk = true → s.power = .running → (s.port p).answer ≠ none →
      let a := validArrival p s
      exec c s = .next (a.setPort p
        { a.port p with held := some r.frame, frameErr := (s.port p).frameErr || (s.port p).held.isSome })) ∧
  ∀ (p : Port) (s : State) (x : Answer), s.power = .running → (s.port p).answer = some x →
    let gone := { s with now := max s.now (x.startUs + ((x.payload.length + 6) * 3125 + 143) / 144) }
    ((s.port p).held = none →
      exec (.answerComplete p) s = .next (gone.setPort p { s.port p with answer := none })) ∧
    ∀ f, (s.port p).held = some f →
      exec (.answerComplete p) s = .next (takeFrame p f (gone.setPort p { s.port p with answer := none, held := none }))

/-- From supply low until the next start no frame, byte, link event, timer or completion has an effect (R22, R173, R190),
every HALT line is asserted and every SLOW, CUT, MARK and ATTN line released (R8, R178, R190). Of an unpowered part this
is read from the spec (assumption log 14). -/
def Obligations.NothingIsTakenFromSupplyLow : Prop :=
  (∀ (c : Instr) (s : State), needsRunningPart c = true → s.power ≠ .running → exec c s = .next s) ∧
  ∀ s : State, s.power ≠ .running →
    (∀ i, haltReleased s i = false) ∧ slowLine s = false ∧ cutLine s = false ∧ markLine s = false ∧
      ∀ p, attnLine s p = false

/-- What the common checks refuse (R165), and the frames that are too long to be valid (R161): a station-control request
from a port that is not the station's bound port, a kind outside the table, a payload length the table does not allow. -/
def Obligations.CommonChecksRefuse : Prop :=
  (∀ (c : Instr) (p : Port) (r : Request) (b : Byte) (s : State),
    requestOf c = some (p, r) → r.control = some b → Listens p s → (∀ i, b = staByte i → ¬ Steers p i s) →
      (r = .faultClear 0xFF → ∀ i, ¬ Steers p i s) → OnlyAnswers p r.kind .notBound [] c s) ∧
  (∀ (p : Port) (kind : Byte) (payload : List Byte) (s : State),
    (Instr.unknownRequest p kind payload).wf = true → Listens p s →
      OnlyAnswers p kind .unknownRequest [] (.unknownRequest p kind payload) s) ∧
  (∀ (p : Port) (lot : BitVec 16) (s : State), Listens p s →
    OnlyAnswers p 0x11 .badLength [] (.lotWrite p lot []) s ∧
      OnlyAnswers p 0x70 .badLength [] (.settingsWrite p []) s ∧ OnlyAnswers p 0x72 .badLength [] (.calWrite p []) s) ∧
  ∀ (p : Port) (lot : BitVec 16) (pairs : List (Byte × BitVec 32)) (s : State), s.power = .running → 13 ≤ pairs.length →
    let t := s.setPort p { s.port p with frameErr := true }
    exec (.lotWrite p lot pairs) s = .next t ∧ exec (.settingsWrite p pairs) s = .next t ∧
      exec (.calWrite p pairs) s = .next t

/-- The reads of stations, lots, bobbins, plan, looms, the meter, the coiler, the routing table and the settings answer
with what stands and have no effect; a name out of range or of nothing is refused (R13, R45, R61, R99, R100, R105, R123,
R136, R156, R181, R187, R188). The payloads follow R177 as assumption log 9 reads it; the word code of a winding place is
a free value (assumption log 12). -/
def Obligations.ReadsHaveNoEffect : Prop :=
  ∀ (p : Port) (s : State), Listens p s →
    (∀ i, OnlyAnswers p 0x01 .ok (stationBytes i s) (.stationRead p (staByte i)) s) ∧
    (∀ b : Byte, 7 < b.toNat → OnlyAnswers p 0x01 .outOfRange [] (.stationRead p b) s) ∧
    (∀ t, OnlyAnswers p 0x20 .ok (layPayload (s.twist t) s.nowMs) (.layRead p (staByte (twiSta t))) s) ∧
    (∀ b : Byte, 4 < b.toNat → OnlyAnswers p 0x20 .outOfRange [] (.layRead p b) s) ∧
    OnlyAnswers p 0x18 .ok (listBytes (fun l : Lot => u2 l.number ++ u1 l.build.kindCode ++ w2 l.state.word) s.lotList)
      (.lotRead p 0) s ∧
    (∀ n : BitVec 16, n ≠ 0 →
      match s.lot? n.toNat with
      | some l => OnlyAnswers p 0x18 .ok l.bytes (.lotRead p n) s
      | none => OnlyAnswers p 0x18 .notFound [] (.lotRead p n) s) ∧
    OnlyAnswers p 0x37 .ok (listBytes (fun b : Bobbin => u2 b.id ++ u1 b.state.code) s.bobbins) (.bobbinRead p 0) s ∧
    (∀ n : BitVec 16, n ≠ 0 →
      match s.bobbin? n.toNat with
      | some b => OnlyAnswers p 0x37 .ok b.bytes (.bobbinRead p n) s
      | none => OnlyAnswers p 0x37 .notFound [] (.bobbinRead p n) s) ∧
    (∀ i, i = staC0 ∨ i = loomSta 0 ∨ i = loomSta 1 →
      OnlyAnswers p 0x38 .ok (feedBytes i s) (.feedRead p (staByte i)) s) ∧
    (∀ b : Byte, b.toNat < 4 ∨ 6 < b.toNat → OnlyAnswers p 0x38 .outOfRange [] (.feedRead p b) s) ∧
    (∀ i : SegIx, OnlyAnswers p 0x41 .ok (segmentBytes i s) (.segmentRead p (BitVec.ofNat 8 i.val)) s) ∧
    (∀ b : Byte, 63 < b.toNat → OnlyAnswers p 0x41 .outOfRange [] (.segmentRead p b) s) ∧
    (∀ l, OnlyAnswers p 0x45 .ok ((s.loom l).bytes s.settings.needles[l]) (.loomRead p (staByte (loomSta l))) s) ∧
    (∀ b : Byte, b ≠ 5 → b ≠ 6 → OnlyAnswers p 0x45 .outOfRange [] (.loomRead p b) s) ∧
    OnlyAnswers p 0x50 .ok (meterBytes s) (.meterRead p) s ∧
    OnlyAnswers p 0x5B .ok (arborsBytes s) (.coilerRead p 0) s ∧
    OnlyAnswers p 0x5B .ok (listBytes u3 s.coiler.tags) (.coilerRead p 1) s ∧
    OnlyAnswers p 0x5B .ok (listBytes (fun c : Coil => u3 (c.tag.getD 0) ++ u2 c.lot ++ u2 c.seq) s.coiler.outbound)
      (.coilerRead p 2) s ∧
    (∀ b : Byte, 2 < b.toNat → OnlyAnswers p 0x5B .outOfRange [] (.coilerRead p b) s) ∧
    OnlyAnswers p 0x62 .ok (s.settings.routing.toList.map fun x => BitVec.ofNat 8 x.toNat) (.routeRead p) s ∧
    OnlyAnswers p 0x71 .ok (settingsBytes s.settings) (.settingsRead p) s ∧
    OnlyAnswers p 0x73 .ok (calBytes s.settings) (.calRead p) s

/-- PORT_STATUS (R172): the asking port's number; for each port its link state and silence period, the asking port LIVE by
the arrival of its frame; the set of stations bound to the asking port. The bytes of the payload (no count before the four
ports, a link state in one byte, a period in four) follow R177 as assumption log 9 reads it. -/
def Obligations.PortStatusReports : Prop :=
  ∀ (p : Port) (s : State), Listens p s →
    ∃ set : Byte, (∀ i : Sta, set.getLsbD i.val = true ↔ Steers p i s) ∧
      OnlyAnswers p 0x05 .ok
        (BitVec.ofNat 8 p.val ::
          (allPorts.flatMap fun q =>
            (if q = p ∨ (s.port q).live = true then (0 : Byte) else 1) :: bytesOf 4 (s.settings.silence[q]).code) ++ [set])
        (.portStatus p) s

/-! ## Binding, causes and notices -/

/-- STATION_BIND by the station's binding: unbound, bound to the asking port, bound to a SILENT port (taken over, with a
LINK notice to that port), bound to a LIVE port (refused); an index above 7 is refused (R167). STATION_UNBIND from the
bound port: refused while the station runs, and otherwise the binding is gone (R168). -/
def Obligations.BindAndUnbind : Prop :=
  (∀ (p : Port) (i : Sta) (s : State), Listens p s → Steers p i s →
    let runs : Prop :=
      match twistOf i, loomOf i with
      | some _, _ =>
        (s.station i).state = .runUp ∨ (s.station i).state = .steady ∨ (s.station i).state = .runDown
      | none, some l =>
        (s.station i).state = .knotting ∨ (s.station i).state = .rowHold ∨ (s.loom l).openRow = true
      | none, none => False
    (runs → OnlyAnswers p 0x04 .wrongState [] (.stationUnbind p (staByte i)) s) ∧
    (¬ runs → Answers p 0x04 .ok [] (.stationUnbind p (staByte i)) s
      ((validArrival p s).setStation i { s.station i with bound := none }))) ∧
  ∀ (p : Port) (s : State), Listens p s →
    let a := validArrival p s
    (∀ i, (s.station i).bound = none →
      Answers p 0x03 .ok [] (.stationBind p (staByte i)) s (a.setStation i { s.station i with bound := some p })) ∧
    (∀ i, Steers p i s → OnlyAnswers p 0x03 .ok [] (.stationBind p (staByte i)) s) ∧
    (∀ i q, q ≠ p → (s.station i).bound = some q →
      ((s.port q).live = true → OnlyAnswers p 0x03 .stationHeld [] (.stationBind p (staByte i)) s) ∧
      ((s.port q).live = false → Answers p 0x03 .ok [] (.stationBind p (staByte i)) s
        (offer q .link (.station i) 0x606 (a.setStation i { s.station i with bound := some p })))) ∧
    ∀ b : Byte, 7 < b.toNat → OnlyAnswers p 0x03 .outOfRange [] (.stationBind p b) s

/-- FAULT_CLEAR of one station by its bound port (R10, R7): its record is cleared, RETRY_WAIT is answered while
retry-until is present, and K0 leaving HALTED takes COILER_HALT from C0 (R4). -/
def Obligations.FaultClearRemovesLatchedCauses : Prop :=
  ∀ (p : Port) (i : Sta) (s : State), Listens p s → Steers p i s →
    let code : Code := if (s.station i).retryUntilMs.isSome then .retryWait else .ok
    let b := writeStation i (cleared i (s.station i)) (validArrival p s)
    let c0 := s.station staC0
    Answers p 0x02 code [] (.faultClear p (staByte i)) s
      (if i = staK0 ∧ (s.station i).state = .halted ∧ (b.station i).state ≠ .halted ∧
          hasCause c0.causes .coilerHalt = true
        then writeStation staC0 (emptied staC0 (c0.causes &&& 0x7FF) c0) b
        else b)

/-- FAULT_CLEAR of ALL clears every station bound to the asking port, one by one, and no other (R11); C0 loses COILER_HALT
where K0 leaves HALTED (R4). -/
def Obligations.FaultClearAllClearsTheBound : Prop :=
  ∀ (p : Port) (s : State) (code : Code), Listens p s → (∃ i, Steers p i s) →
    (code = .retryWait ∧ (∃ i, Steers p i s ∧ (s.station i).retryUntilMs ≠ none) ∨
      code = .ok ∧ ∀ i, Steers p i s → (s.station i).retryUntilMs = none) →
    let r := fun i => if (s.station i).bound = some p then cleared i (s.station i) else s.station i
    ∃ u, Answers p 0x02 code [] (.faultClearAll p) s u ∧
      u = { validArrival p s with stations := u.stations, ports := u.ports, queues := u.queues } ∧
      (∀ i, i ≠ staC0 → u.station i = r i) ∧
      u.station staC0 =
        if (s.station staK0).state = .halted ∧ (r staK0).state ≠ .halted ∧ hasCause (r staC0).causes .coilerHalt = true
        then emptied staC0 ((r staC0).causes &&& 0x7FF) (r staC0)
        else r staC0

/-- The raise of a cause (R2, R4 to R6, R12): nothing where it is not admissible or present; otherwise the set takes it,
LAY_SEVERE starts the retry wait, the station moves, and K0 entering HALTED raises COILER_HALT on C0 if C0 holds a lot. The
FAULT notice with the cause comes first, the STATE notice of a move after it, and C0's two after K0's. -/
def Obligations.RaisedCauseStopsTheStation : Prop :=
  ∀ (i : Sta) (c : Cause) (s : State),
    let r := s.station i
    let c0 := s.station staC0
    let moves := fun (j : Sta) (st : RunState) =>
      match st with
      | .idle | .standby | .knotting | .active => RunState.halted
      | .runUp | .steady => if j.val < 5 then .runDown else st
      | st => st
    let tells := fun (j : Sta) (word : BitVec 16) (st : RunState) (u : State) =>
      let told := raise .fault (.station j) word u
      if moves j st = st then told else raise .state (.station j) (moves j st).word told
    let r' : Station :=
      { r with
        causes := r.causes ||| BitVec.twoPow 12 c.idx
        state := moves i r.state
        retryUntilMs := if c = .laySevere then s.settings.retryWait.ms.map (s.nowMs + ·) else r.retryUntilMs }
    (c.admissible (kindOf i) = false ∨ s.has i c = true → raiseCause i c s = s) ∧
    (c.admissible (kindOf i) = true → s.has i c = false →
      let t := raiseCause i c s
      t = { s with stations := t.stations, twists := t.twists, ports := t.ports, queues := t.queues } ∧
      t.station i = r' ∧
      (∀ j, j ≠ i → j ≠ staC0 ∨ i ≠ staK0 → t.station j = s.station j) ∧
      (i ≠ staK0 ∨ r.state = .halted ∨ moves i r.state ≠ .halted ∨ c0.lot = none ∨ hasCause c0.causes .coilerHalt = true →
        t.queues = (tells i c.word r.state s).queues ∧ (i ≠ staC0 → t.station staC0 = c0)) ∧
      (i = staK0 → r.state ≠ .halted → moves i r.state = .halted → c0.lot ≠ none →
        hasCause c0.causes .coilerHalt = false →
        t.station staC0 = { c0 with causes := c0.causes ||| 0x800, state := moves staC0 c0.state } ∧
          t.queues = (tells staC0 0x30B c0.state (tells i c.word r.state s)).queues))

/-- A notice goes to the bound port of a station that has one and otherwise by the routing table (R180). In each of those
queues it coalesces with the entry of its class and subject, or joins, or overflows (R182). Nothing else changes. -/
def Obligations.NoticesAreRoutedAndQueued : Prop :=
  ∀ (cls : NoticeClass) (subject : Subject) (detail : BitVec 16) (s : State),
    let ports : Port → Prop := fun q =>
      match subject with
      | .station i =>
        match (s.station i).bound with
        | some b => q = b
        | none => (s.settings.routing[cls.idx]).getLsbD q.val = true
      | _ => (s.settings.routing[cls.idx]).getLsbD q.val = true
    let t := raise cls subject detail s
    let same : Entry → Prop := fun e => e.cls = cls ∧ e.subject = subject
    t = { s with ports := t.ports, queues := t.queues } ∧
    (∀ q, ¬ ports q → t.queue q = s.queue q ∧ t.port q = s.port q) ∧
    ∀ q, ports q →
      ((∃ e ∈ s.queue q, same e) → t.port q = s.port q ∧ (t.queue q).length = (s.queue q).length ∧
        ∀ (k : Nat) (e : Entry), (s.queue q)[k]? = some e →
          (same e → (t.queue q)[k]? = some { e with detail := detail, repeats := min 255 (e.repeats + 1) }) ∧
          (¬ same e → (t.queue q)[k]? = some e)) ∧
      ((∀ e ∈ s.queue q, ¬ same e) → (s.queue q).length < 32 →
        t.port q = s.port q ∧
        t.queue q = s.queue q ++
          [{ cls := cls, subject := subject, detail := detail, repeats := 1, first := BitVec.ofNat 32 s.nowMs }]) ∧
      ((∀ e ∈ s.queue q, ¬ same e) → 32 ≤ (s.queue q).length →
        t.queue q = s.queue q ∧ t.port q = { s.port q with noticeOvf := true })

/-! ## Timers -/

/-- STILLNESS_EXPIRY (R21): the still flag; in RUN_UP and STEADY the stop by the machine (R70); in RUN_DOWN the end of the
run-down (R69), with the end of a fill where the strander holds BOBBIN_FULL and its WINDING bobbin (R78), which may complete
the lot (R44). The order of the stations under LOT_END and the clock after an expiry are the model's choices (assumption log
6, 7). -/
def Obligations.StillnessEndsTheRun : Prop :=
  ∀ (t : Twi) (s : State) (start : Nat), s.power = .running → (s.twist t).stillMs = some start →
    let i := twiSta t
    let r := s.station i
    let now := { s with now := max s.now ((start + 200) * 1000) }
    let w := { s.twist t with stillMs := none, still := true }
    let ended := writeStation i { r with state := if r.causes = 0 then .standby else .halted }
      (now.setTwist t { w with runDown := w.runDown.stop now.nowMs })
    (r.state = .runUp ∨ r.state = .steady →
      exec (.stillnessExpiry t) s = .next (raise .state (.station i) 0x109
        ((now.setTwist t
            { w with lay := { w.lay with isOpen := false, p := 0, dl := 0 }, runUp := w.runUp.stop now.nowMs }).setStation i
          { r with state := .standby }))) ∧
    (r.state = .runDown →
      (hasCause r.causes .bobbinFull = false ∨ t = 4 → exec (.stillnessExpiry t) s = .next ended) ∧
      ∀ (k : Strander) (b : Bobbin) (slot : Slot) (l : Lot), k.val = t.val → hasCause r.causes .bobbinFull = true →
        s.bobbinAt (.winding k) = some b → b.state = .winding → b.lot = some l.number → HasLot s slot l →
        let off := { ended with
          bobbins := withBobbin { b with state := .full, place := none, fillPoint := none } s.bobbins }
        let l' := { l with produced := min 4294967295 (l.produced + b.wound.mm), done := l.done + 1 }
        (l.done + 1 ≠ l.build.ordered ∨ (l.state ≠ .active ∧ l.state ≠ .held) →
          exec (.stillnessExpiry t) s = .next (off.setLot slot (some l'))) ∧
        (l.done + 1 = l.build.ordered → l.state = .active ∨ l.state = .held →
          exec (.stillnessExpiry t) s = .next
            (raiseOnAll l.stations .lotEnd
              (raise .lot (.lot l.number) 0x205 (off.setLot slot (some { l' with state := .complete })))))) ∧
    (r.state = .idle ∨ r.state = .standby ∨ r.state = .halted →
      exec (.stillnessExpiry t) s = .next (now.setTwist t w))

/-- The window time limit (R52) and the phase warnings (R73, R74): each acts on its own condition and not before it is
due, marks or reopens, and raises its notice unless the warning is disabled (R75). The retry wait's expiry makes
retry-until absent and leaves the causes (R12); a mark pulse ends after 50 ms (R145). The clock after an expiry is the
model's choice (assumption log 6). -/
def Obligations.TimersActAtTheirTime : Prop :=
  (∀ (i : Sta) (s : State), s.power = .running →
    (∀ due, (s.station i).retryUntilMs = some due →
      exec (.retryWaitExpiry i) s = .next
        ({ s with now := max s.now (due * 1000) }.setStation i { s.station i with retryUntilMs := none })) ∧
    ((s.station i).retryUntilMs = none → exec (.retryWaitExpiry i) s = .next s) ∧
    (∀ start, s.coiler.markMs = some start →
      exec .markPulseEnd s = .next
        { s with now := max s.now ((start + 50) * 1000), coiler := { s.coiler with markMs := none } }) ∧
    (s.coiler.markMs = none → exec .markPulseEnd s = .next s)) ∧
  ∀ (t : Twi) (s : State), s.power = .running →
    let i := twiSta t
    let w := s.twist t
    let notice := fun (bit : Nat) (cls : NoticeClass) (word : BitVec 16) (u : State) =>
      if s.settings.disable.getLsbD bit then u else raise cls (.station i) word u
    (w.lay.isOpen = true → (s.station i).state = .steady →
      let due := { s with now := max s.now ((w.lay.openMs + s.settings.windowLimit * 1000) * 1000) }
      exec (.windowTimeLimitExpiry t) s = .next
        (notice 3 .layWarn 0x502 (due.setTwist t { w with lay := { w.lay with p := 0, dl := 0, openMs := due.nowMs } }))) ∧
    (w.lay.isOpen = false ∨ (s.station i).state ≠ .steady → exec (.windowTimeLimitExpiry t) s = .next s) ∧
    (∀ start scale, (s.station i).state = .runUp → w.runUpLong = false → w.runUp.running = some (start, scale) →
      exec (.runUpLong t) s = .next
        (notice 0 .phaseWarn 0x500
          ({ s with now := max s.now ((start + s.settings.runUpLimit * scale) * 1000) }.setTwist t
            { w with runUpLong := true }))) ∧
    ((s.station i).state ≠ .runUp ∨ w.runUpLong = true → exec (.runUpLong t) s = .next s) ∧
    (∀ start scale, (s.station i).state = .runDown → w.runDownLong = false → w.runDown.running = some (start, scale) →
      exec (.runDownLong t) s = .next
        (notice 1 .phaseWarn 0x501
          ({ s with now := max s.now ((start + s.settings.runDownLimit * scale) * 1000) }.setTwist t
            { w with runDownLong := true }))) ∧
    ((s.station i).state ≠ .runDown ∨ w.runDownLong = true → exec (.runDownLong t) s = .next s)

/-! ## Pulse channels, windows and lengths -/

/-- Raw changes and accepted changes of a channel (R16, R22): the filter delays a change, a change back discards it, and
an accepted change is an edge that the edge mode counts or not. A counted edge goes to the channel's station and input
(R15). The clock after an accepted change is the model's choice (assumption log 6), and the raw level is tracked while the
part does not run (assumption log 14). -/
def Obligations.ChannelsFilterAndCount : Prop :=
  (∀ (c : Chan) (level : Bool) (s : State), (s.channel c).raw = level → exec (.rawInputChange c level) s = .next s) ∧
  (∀ (c : Chan) (level : Bool) (s : State), (s.channel c).raw ≠ level →
    let ch := s.channel c
    let counts : Bool :=
      ch.level != level &&
        match s.settings.edge[c] with
        | .off => false
        | .rise => level
        | .fall => !level
        | .both => true
    let taken := fun u : State => u.setChannel c { raw := level, level := level, pending := none }
    (s.power ≠ .running → exec (.rawInputChange c level) s = .next (s.setChannel c { ch with raw := level })) ∧
    (s.power = .running → s.settings.filter[c] ≠ .off →
      exec (.rawInputChange c level) s = .next
        (s.setChannel c { ch with raw := level, pending := if level = ch.level then none else some (level, s.now) })) ∧
    (s.power = .running → s.settings.filter[c] = .off →
      exec (.rawInputChange c level) s = .next (if counts then countedEdge c (taken s) else taken s))) ∧
  (∀ (c : Chan) (level : Bool) (since : Nat) (s : State), s.power = .running → (s.channel c).pending = some (level, since) →
    let ch := s.channel c
    let counts : Bool :=
      ch.level != level &&
        match s.settings.edge[c] with
        | .off => false
        | .rise => level
        | .fall => !level
        | .both => true
    let held : Nat := match s.settings.filter[c] with | .off => 0 | .us20 => 20 | .us100 => 100 | .us500 => 500
    let u := { s with now := max s.now (since + held) }.setChannel c { ch with level := level, pending := none }
    exec (.pendingChangeAccept c) s = .next (if counts then countedEdge c u else u)) ∧
  ∀ (c : Chan) (t : Twi) (s : State),
    (c.val = 2 * t.val → countedEdge c s = flyEdge t s) ∧ (c.val = 2 * t.val + 1 → countedEdge c s = capEdge t s) ∧
      (c.val = 10 → countedEdge c s = wheelEdge s)

/-- The arithmetic of a close: the lay is the length over the turns in 0.1 mm, rounded half up (R53); the error is the
truncated ‰ of the target (R54), each clamped at its ends; the first close seeds the filtered error, and each later one
moves it by a quarter of its distance to the error, truncated, never away from it (R55). A length keeps its carry exactly
and saturates at 4,294,967,295 mm 999 µm (R20; of the lengths beside the accumulators, assumption log 17). -/
def Obligations.MeasuringArithmetic : Prop :=
  (∀ (l : Len) (d : Nat),
    (l.um < 1000 → (l.add d).um < 1000) ∧
      (l.total + d < 4294967296000 → (l.add d).total = l.total + d) ∧
      (4294967296000 ≤ l.total + d → l.add d = ⟨4294967295, 999⟩)) ∧
  (∀ dl n : Nat, 0 < n → 1 ≤ (dl + 50 * n) / (100 * n) → (dl + 50 * n) / (100 * n) ≤ 65535 →
    100 * n * layOf dl n ≤ dl + 50 * n ∧ dl + 50 * n < 100 * n * layOf dl n + 100 * n) ∧
  (∀ dl n : Nat, 0 < n →
    1 ≤ layOf dl n ∧ layOf dl n ≤ 65535 ∧ (dl + 50 * n < 100 * n → layOf dl n = 1) ∧ (65536 * (100 * n) ≤ dl + 50 * n → layOf dl n = 65535)) ∧
  (∀ lay target : Nat, 0 < target →
    -999 ≤ errorOf lay target ∧ errorOf lay target ≤ 999 ∧
      (target ≤ lay → 0 ≤ errorOf lay target) ∧ (lay ≤ target → errorOf lay target ≤ 0) ∧
      (1000 * (lay - target : Int) < 1000 * target → -1000 * (target : Int) < 1000 * (lay - target) →
        (errorOf lay target).natAbs * target ≤ 1000 * (lay - target : Int).natAbs ∧
          1000 * (lay - target : Int).natAbs < ((errorOf lay target).natAbs + 1) * target) ∧
      (999 * target ≤ 1000 * (lay - target : Int) → errorOf lay target = 999) ∧
      (1000 * (lay - target : Int) ≤ -999 * target → errorOf lay target = -999)) ∧
  ∀ f e : Int,
    (∀ old, filterOf true old e = e) ∧
    4 * (filterOf false (some f) e - f).natAbs ≤ (e - f).natAbs ∧
    (e - f).natAbs < 4 * (filterOf false (some f) e - f).natAbs + 4 ∧
    (f ≤ e → f ≤ filterOf false (some f) e ∧ filterOf false (some f) e ≤ e) ∧
    (e ≤ f → e ≤ filterOf false (some f) e ∧ filterOf false (some f) e ≤ f) ∧
    (filterOf false (some f) e = f ↔ (e - f).natAbs < 4)

/-- A counted FLY edge (R21, R49, R50): it restarts the stillness timer and counts in an open window; at the close count
the window closes by R53 to R58 and opens again. In RUN_UP a second good window takes the station to STEADY (R56). In
STEADY a close that is neither severe nor beyond the tolerance only measures (R57, R58), and on C0 every close gives its
coil the statistics (R60). A severe close raises its LAY_WARN notice always, the third close in a row beyond the tolerance
raises LAY_DRIFT with its notice unless disabled, and the halt-enabled ones of the two stop the station (R57 to R59). -/
def Obligations.FlyEdgesMeasureTheLay : Prop :=
  ∀ (t : Twi) (s : State),
    let i := twiSta t
    let r := s.station i
    let w := { s.twist t with stillMs := some s.nowMs, still := false }
    (w.lay.isOpen = false → flyEdge t s = s.setTwist t w) ∧
    (w.lay.isOpen = true → w.lay.p + 1 < w.lay.closeCount →
      flyEdge t s = s.setTwist t { w with lay := { w.lay with p := w.lay.p + 1 } }) ∧
    ∀ target tol n, w.lay.isOpen = true → w.lay.closeCount ≤ w.lay.p + 1 → s.layTerms t = some (target, tol, n) →
      let lay := layOf w.lay.dl n
      let e := errorOf lay target
      let f := filterOf w.lay.seedPending w.lay.f e
      let measured : Lay :=
        { w.lay with p := 0, dl := 0, openMs := s.nowMs, lastLay := some lay, lastE := some e, f := some f, seedPending := false }
      (r.state = .runUp → tol < e.natAbs → flyEdge t s = s.setTwist t { w with lay := { measured with good := 0 } }) ∧
      (r.state = .runUp → e.natAbs ≤ tol → w.lay.good = 0 →
        flyEdge t s = s.setTwist t { w with lay := { measured with good := 1 } }) ∧
      (r.state = .runUp → e.natAbs ≤ tol → w.lay.good = 1 →
        ∃ u, flyEdge t s = u ∧
          u = { s with twists := u.twists, stations := u.stations, ports := u.ports, queues := u.queues } ∧
          u.twist t = { w with lay := { measured with good := 0 }, runUp := w.runUp.stop s.nowMs } ∧
          (∀ k, k ≠ t → u.twist k = s.twist k) ∧ u.station i = { r with state := .steady } ∧
          (∀ j, j ≠ i → u.station j = s.station j) ∧
          u.queues = (raise .state (.station i) 0x103 (s.setStation i { r with state := .steady })).queues) ∧
      (r.state = .steady → e.natAbs ≤ 2 * tol → f.natAbs ≤ tol → t ≠ 4 →
        flyEdge t s = s.setTwist t { w with lay := { measured with drift := 0 } }) ∧
      (r.state = .steady → e.natAbs ≤ 2 * tol → f.natAbs ≤ tol → t = 4 →
        ∀ c, s.coiler.a = .busy .winding c →
          flyEdge t s =
            { s.setTwist t { w with lay := { measured with drift := 0 } } with
              coiler :=
                { s.coiler with
                  a := .busy .winding
                    { c with
                      minF := some (match c.minF with | some m => min m f | none => f)
                      maxF := some (match c.maxF with | some m => max m f | none => f) } } }) ∧
      (r.state = .steady → 2 * tol < e.natAbs → f.natAbs ≤ tol → t ≠ 4 → s.settings.haltEnable.getLsbD 0 = true →
        hasCause r.causes .laySevere = false →
        ∃ u, flyEdge t s = u ∧
          u = { s with twists := u.twists, stations := u.stations, ports := u.ports, queues := u.queues } ∧
          u.station i =
            { r with
              state := .runDown
              causes := r.causes ||| 1
              retryUntilMs := s.settings.retryWait.ms.map (s.nowMs + ·) } ∧
          (∀ j, j ≠ i → u.station j = s.station j) ∧
          (u.twist t).lay = { measured with isOpen := false, drift := 0, openMs := w.lay.openMs } ∧
          (u.twist t).runDown = { count := 0, running := some (s.nowMs, s.settings.scale.ms) } ∧
          (u.twist t).stillMs = some s.nowMs) ∧
      (r.state = .steady →
        let severe := decide (2 * tol < e.natAbs)
        let beyond := decide (tol < f.natAbs)
        let drifted := beyond && w.lay.drift == 2
        let kept : Lay := { measured with drift := if beyond then min 255 (w.lay.drift + 1) else 0 }
        let coiled : Coiler :=
          match s.windingArbor, s.windingArbor.map s.arbor with
          | some id, some (.busy ph c) =>
            if t = 4 then
              s.coiler.setArbor id (.busy ph
                { c with
                  minF := some (match c.minF with | some m => min m f | none => f)
                  maxF := some (match c.maxF with | some m => max m f | none => f)
                  drift := if drifted then min 255 (c.drift + 1) else c.drift })
            else s.coiler
          | _, _ => s.coiler
        let warned := fun u : State =>
          let v := if severe then raise .layWarn (.station i) 0x300 u else u
          if drifted && !s.settings.disable.getLsbD 2 then raise .layWarn (.station i) 0x301 v else v
        let haltSevere := severe && s.settings.haltEnable.getLsbD 0
        let haltDrift := drifted && s.settings.haltEnable.getLsbD 1
        (haltSevere = false → haltDrift = false →
          flyEdge t s = warned { s.setTwist t { w with lay := kept } with coiler := coiled }) ∧
        (haltSevere = true ∨ haltDrift = true → r.causes = 0 →
          let closed := warned
            { s.setTwist t { w with lay := { kept with isOpen := false, openMs := w.lay.openMs } } with coiler := coiled }
          let first := if haltSevere then raiseCause i .laySevere closed else closed
          let u := if haltDrift then raiseCause i .layDrift first else first
          flyEdge t s = u ∧
            u.station i =
              { r with
                state := .runDown
                causes := (if haltSevere then 1 else 0) ||| (if haltDrift then 2 else 0)
                retryUntilMs :=
                  if haltSevere then s.settings.retryWait.ms.map (s.nowMs + ·) else r.retryUntilMs } ∧
            (∀ j, j ≠ i → u.station j = s.station j) ∧ u.coiler = coiled ∧
            (u.twist t).lay = { kept with isOpen := false, openMs := w.lay.openMs }))

/-- A counted CAP edge of a strander (R19, R20, R49, R87): its increment goes to the run-length accumulator while a lot is
held, to an open window, and onto the WINDING bobbin up to its capacity, with OVERWIND at the first clamped increment. At
the fill point BOBBIN_FULL is raised after it (R77): a running strander runs down (R5), one in RUN_DOWN stays there, and for
one at rest the fill ends in the same event (R78) and may complete its lot (R44). The order of the stations under LOT_END is
the model's choice (assumption log 7). -/
def Obligations.StranderCapEdgesWind : Prop :=
  ∀ (k : Strander) (t : Twi) (s : State), t.val = k.val →
    let i := twiSta t
    let r := s.station i
    let d := s.settings.capstan[t]
    let w := s.twist t
    let c := s.setTwist t
      { w with
        acc := if r.lot.isSome then w.acc.add d else w.acc
        lay := { w.lay with dl := if w.lay.isOpen then min 4294967295 (w.lay.dl + d) else w.lay.dl } }
    (s.bobbinAt (.winding k) = none → capEdge t s = c) ∧
    ∀ b fill, s.bobbinAt (.winding k) = some b → b.state = .winding → b.fillPoint = some fill →
      let clamped := decide (b.capacity * 1000 < b.wound.total + d)
      let grown : Len := if clamped then ⟨b.capacity, 0⟩ else ⟨(b.wound.total + d) / 1000, (b.wound.total + d) % 1000⟩
      let b' := { b with wound := grown, overwind := b.overwind || clamped }
      let wound := { c with bobbins := withBobbin b' s.bobbins }
      let told :=
        if clamped && !b.overwind && !s.settings.disable.getLsbD 4 then raise .bobbin (.bobbin b.id) 0x503 wound else wound
      let filled := { r with causes := r.causes ||| 0x020 }
      (grown.mm < fill → capEdge t s = told) ∧
      (fill ≤ grown.mm → r.state = .runUp ∨ r.state = .steady ∨ r.state = .runDown →
        (hasCause r.causes .bobbinFull = true → capEdge t s = told) ∧
        (hasCause r.causes .bobbinFull = false → r.state = .runDown →
          capEdge t s = raise .fault (.station i) 0x305 (told.setStation i filled)) ∧
        (hasCause r.causes .bobbinFull = false → r.state ≠ .runDown →
          let u := capEdge t s
          u = raiseCause i .bobbinFull told ∧
            u = { s with
              twists := u.twists, stations := u.stations, bobbins := u.bobbins, ports := u.ports, queues := u.queues } ∧
            u.bobbins = withBobbin b' s.bobbins ∧ u.station i = { filled with state := .runDown } ∧
            (∀ j, j ≠ i → u.station j = s.station j) ∧ (u.twist t).acc = (c.twist t).acc ∧
            (u.twist t).lay = { (c.twist t).lay with isOpen := false, p := 0, dl := 0 } ∧
            u.queues = (raise .state (.station i) 0x104 (raise .fault (.station i) 0x305 told)).queues)) ∧
      (fill ≤ grown.mm → r.state = .standby ∨ r.state = .halted → hasCause r.causes .bobbinFull = false →
        ∀ slot l, b.lot = some l.number → HasLot s slot l →
          let rest := writeStation i { filled with state := .halted } (raise .fault (.station i) 0x305 told)
          let off := { rest with
            bobbins := withBobbin { b' with state := .full, place := none, fillPoint := none } s.bobbins }
          let l' := { l with produced := min 4294967295 (l.produced + grown.mm), done := l.done + 1 }
          (l.done + 1 ≠ l.build.ordered ∨ (l.state ≠ .active ∧ l.state ≠ .held) →
            capEdge t s = off.setLot slot (some l')) ∧
          (l.done + 1 = l.build.ordered → l.state = .active ∨ l.state = .held →
            capEdge t s = raiseOnAll l.stations .lotEnd
              (raise .lot (.lot l.number) 0x205 (off.setLot slot (some { l' with state := .complete })))))

/-! ## Draw, metering and coils -/

/-- A draw on a place (R95, R96): a MOUNTED bobbin gives what it has and the rest is shortfall, so that no length is lost;
it runs out at nothing remaining, with FEED_OUT on its station and then its FEED notice, and takes its low mark below the
low-remnant mark, with BOBBIN_LOW unless disabled. Any other place gives nothing. That BOBBIN_LOW comes before FEED_OUT's
notices too is the model's choice (assumption log 7). -/
def Obligations.DrawsAreConserved : Prop :=
  ∀ (i : Sta) (pl : Place) (d : Nat) (s : State),
    let r := charge i pl d s
    ((∀ b, s.bobbinAt pl = some b → b.state ≠ .mounted) → r = (s, d)) ∧
    ∀ b, s.bobbinAt pl = some b → b.state = .mounted → b.drawn.total ≤ b.wound.total →
      let take := min d (b.wound.total - b.drawn.total)
      let left := b.wound.total - b.drawn.total - take
      let drawn : Len := ⟨(b.drawn.total + take) / 1000, (b.drawn.total + take) % 1000⟩
      r.2 = d - take ∧ drawn.total + r.2 = b.drawn.total + d ∧
      r.1 = { s with
        bobbins := r.1.bobbins, stations := r.1.stations, twists := r.1.twists, ports := r.1.ports, queues := r.1.queues } ∧
      r.1.bobbins = withBobbin
        { b with
          drawn := drawn
          state := if left = 0 then .runOut else .mounted
          low := b.low || decide (left < s.settings.lowMark * 1000) } s.bobbins ∧
      (let marked := decide (left < s.settings.lowMark * 1000) && !b.low
        let charged : State := { s with bobbins := r.1.bobbins }
        let told :=
          if marked && !s.settings.disable.getLsbD 5 then raise .bobbin (.bobbin b.id) 0x504 charged else charged
        r.1 = if left = 0 then raise .feed (.station i) pl.word (raiseCause i .feedOut told) else told) ∧
      (0 < left → r.1.stations = s.stations ∧ r.1.twists = s.twists) ∧
      (left = 0 → (i = staC0 ∨ i = loomSta 0 ∨ i = loomSta 1) → hasCause (r.1.station i).causes .feedOut = true) ∧
      ∀ j, j ≠ i → i ≠ staK0 → r.1.station j = s.station j

/-- A counted CAP edge of C0 (R19, R20, R49): accumulator and window, then the bobbin table and the metering unit in
either order (assumption log 5). The take-up draw keeps a residue at each closer position in use, and charges the whole µm
to its MOUNTED bobbin, which runs out at nothing remaining; what no MOUNTED bobbin gives is shortfall, of C0 and of the
receiving coil (R93, R95). -/
def Obligations.CloserCapEdgesDraw : Prop :=
  (∀ s : State,
    let d := s.settings.capstan[(4 : Twi)]
    let w := s.twist 4
    let c := { s with choices := s.choices + 1 }.setTwist 4
      { w with
        acc := if (s.station staC0).lot.isSome then w.acc.add d else w.acc
        lay := { w.lay with dl := if w.lay.isOpen then min 4294967295 (w.lay.dl + d) else w.lay.dl } }
    capEdge 4 s = meterCap d (takeUpDraw d c) ∨ capEdge 4 s = takeUpDraw d (meterCap d c)) ∧
  ∀ (d : Nat) (s : State),
    (s.rope = none → takeUpDraw d s = s) ∧
    ∀ r, s.rope = some r →
      (∀ j : Pos, (takeUpDraw d s).residues[j] =
        if j.val < r.strands then (d * r.takeUp + s.residues[j]) % 1000 else s.residues[j]) ∧
      ((∀ (j : Pos) (b : Bobbin), s.bobbinAt (.closer j) = some b → b.state ≠ .mounted) →
        let short := (r.positions.map fun j => (d * r.takeUp + s.residues[j]) / 1000).sum
        takeUpDraw d s = { s with
          residues := (takeUpDraw d s).residues, closerShort := s.closerShort.add short, coiler := (takeUpDraw d s).coiler } ∧
        (s.receiving = none → (takeUpDraw d s).coiler = s.coiler) ∧
        ∀ id ph c, s.receiving = some id → s.arbor id = .busy ph c →
          (takeUpDraw d s).coiler =
            s.coiler.setArbor id (.busy ph { c with shortfall := c.shortfall.add short })) ∧
      (BobbinsOk s →
        let u := takeUpDraw d s
        let draw := fun j : Pos => (d * r.takeUp + s.residues[j]) / 1000
        let gives := fun j : Pos =>
          match s.bobbinAt (.closer j) with
          | some b => if b.state = .mounted then min (draw j) (b.wound.total - b.drawn.total) else 0
          | none => 0
        let short := (r.positions.map fun j => draw j - gives j).sum
        u = { s with
          residues := u.residues, bobbins := u.bobbins, closerShort := s.closerShort.add short, coiler := u.coiler
          stations := u.stations, twists := u.twists, ports := u.ports, queues := u.queues } ∧
        (s.receiving = none → u.coiler = s.coiler) ∧
        (∀ id ph c, s.receiving = some id → s.arbor id = .busy ph c →
          u.coiler = s.coiler.setArbor id (.busy ph { c with shortfall := c.shortfall.add short })) ∧
        (∀ i, i ≠ staC0 → u.station i = s.station i) ∧
        (∀ (j : Pos) (b : Bobbin), j.val < r.strands → s.bobbinAt (.closer j) = some b → b.state = .mounted →
          let left := b.wound.total - b.drawn.total - gives j
          u.bobbinAt (.closer j) = some
            { b with
              drawn := ⟨(b.drawn.total + gives j) / 1000, (b.drawn.total + gives j) % 1000⟩
              state := if left = 0 then .runOut else .mounted
              low := b.low || decide (left < s.settings.lowMark * 1000) } ∧
          (left = 0 → hasCause (u.station staC0).causes .feedOut = true)) ∧
        ∀ b ∈ s.bobbins, (b.state = .mounted → ∀ j : Pos, j.val < r.strands → b.place ≠ some (.closer j)) → b ∈ u.bobbins)

/-- A counted WHL edge (R19, R20, R129, R130, R134): the wheel tally, the stall distance and a recovery, and then the
length: to the unassigned tally with no receiving arbor, to a receiving coil of source WHEEL, and to no other coil; and
the slip window. A K0 without a lot takes none of it (R126). -/
def Obligations.WheelEdgesMeterTheRope : Prop :=
  ∀ s : State,
    let d := s.settings.wheel
    let m := s.meter
    let restored := fun u : State =>
      if m.stall = false ∨ s.settings.disable.getLsbD 7 = true then u else raise .wheel (.station staK0) 0x506 u
    let win := if m.slipOpen then min 4294967295 (m.winWheel + d) else m.winWheel
    let m' := { m with stall := false, stallDist := 0, winWheel := win }
    let k := { s.coiler with wheelTally := s.coiler.wheelTally.add d }
    ((s.station staK0).lot = none → wheelEdge s = s) ∧
    ∀ rope, (s.station staK0).lot ≠ none → s.rope = some rope →
      (s.receiving = none →
        wheelEdge s = restored { s with meter := m', coiler := { k with unassigned := k.unassigned.add d } }) ∧
      (∀ id ph c, s.receiving = some id → s.arbor id = .busy ph c → c.source ≠ .wheel →
        wheelEdge s = restored { s with meter := m', coiler := k }) ∧
      ∀ id ph c, s.receiving = some id → s.arbor id = .busy ph c → c.source = .wheel → m.stall = false →
        let u := coilIncrement d { s with meter := { m with stallDist := 0 }, coiler := k }
        wheelEdge s = { u with meter := m' }

/-- A coil increment (R141 to R145, R20): the receiving coil's length, the mark pulse at a mark point, the slow point, and
the cut point with CUT_STOP on C0 and, while the other arbor is not FREE, ARBOR_BUSY in place of the CUT line. A CUTTING
coil takes the length alone. -/
def Obligations.CoilsGrowThroughTheirPoints : Prop :=
  ∀ (d : Nat) (s : State) (id : ArborId) (ph : ArborPhase) (c : Coil), s.receiving = some id → s.arbor id = .busy ph c →
    let grown := { c with length := c.length.add d }
    (ph = .cutting → coilIncrement d s = s.setArbor id (.busy .cutting grown)) ∧
    ∀ (r : RopeLot) (mark : Bool), s.ropeOf c.lot = some r →
      (mark = true ↔ ∃ n, c.length.mm < n * (r.mark * 1000) ∧ n * (r.mark * 1000) ≤ grown.length.mm ∧
        n * (r.mark * 1000) < r.coilLen * 1000) →
      let base := s.setCoiler { s.coiler with markMs := if mark then some s.nowMs else s.coiler.markMs }
      let slow := r.coilLen * 1000 - r.slow
      (ph = .winding → grown.length.mm < slow → coilIncrement d s = base.setArbor id (.busy .winding grown)) ∧
      (ph = .winding ∧ slow ≤ grown.length.mm ∨ ph = .slowing →
        (grown.length.mm < r.coilLen * 1000 → coilIncrement d s = base.setArbor id (.busy .slowing grown)) ∧
        (r.coilLen * 1000 ≤ grown.length.mm →
          let u := coilIncrement d s
          let c0 := s.station staC0
          u = { s with
            coiler := (base.setArbor id (.busy .cutting grown)).coiler, stations := u.stations, twists := u.twists
            ports := u.ports, queues := u.queues } ∧
          (∀ j, j ≠ staC0 → u.station j = s.station j) ∧
          (u.station staC0).causes = c0.causes ||| 0x200 ||| (if (s.arbor id.other).isFree then 0 else 0x400) ∧
          (c0.state = .runUp ∨ c0.state = .steady → hasCause c0.causes .cutStop = false →
            (u.station staC0).state = .runDown) ∧
          (c0.state = .idle ∨ c0.state = .standby → hasCause c0.causes .cutStop = false →
            (u.station staC0).state = .halted) ∧
          (c0.state = .runDown ∨ c0.state = .halted → (u.station staC0).state = c0.state) ∧
          (s.power = .running → slowLine u = true ∧ (cutLine u = true ↔ s.arbor id.other = .free))))

/-- A C0 increment in the metering unit (R128, R131 to R134): the length of a CAPSTAN or MIXED coil, under a stall or after
its recovery, or, under a stall with no receiving arbor, of the unassigned tally; the stall, which converts a WHEEL coil and
drops its window, and leaves any other coil's source as it is; the slip window, if there is one, whose close judges the coil
and opens the next. -/
def Obligations.CapstanIncrementsJudgeTheWheel : Prop :=
  ∀ (d : Nat) (s : State) (rope : RopeLot), (s.station staK0).lot ≠ none → s.rope = some rope →
    let m := s.meter
    let dist := min 2000000 (m.stallDist + d)
    let disabled := fun bit : Nat => s.settings.disable.getLsbD bit
    let stalled := fun u : State =>
      let v := { u with meter := { m with stall := true, stallDist := 2000000 } }
      if disabled 7 then v else raise .wheel (.station staK0) 0x505 v
    (s.receiving = none → m.slipOpen = false → m.stall = false → m.stallDist + d < 2000000 →
      meterCap d s = { s with meter := { m with stallDist := dist } }) ∧
    (s.receiving = none → m.slipOpen = false → m.stall = false → 2000000 ≤ m.stallDist + d →
      meterCap d s = stalled s) ∧
    (s.receiving = none → m.slipOpen = false → m.stall = true →
      meterCap d s = { s with
        meter := { m with stallDist := dist }
        coiler := { s.coiler with unassigned := s.coiler.unassigned.add d } }) ∧
    (∀ id ph c, s.receiving = some id → s.arbor id = .busy ph c → c.source ≠ .wheel → m.slipOpen = false →
      (m.stall = true ∨ m.stallDist + d < 2000000 →
        meterCap d s = { coilIncrement d s with meter := { m with stallDist := dist } }) ∧
      (m.stall = false → 2000000 ≤ m.stallDist + d → meterCap d s = stalled (coilIncrement d s))) ∧
    (∀ id ph c, s.receiving = some id → s.arbor id = .busy ph c → c.source = .wheel → m.slipOpen = false →
      m.stall = true ∨ m.stallDist + d < 2000000 →
      meterCap d s = { s with meter := { m with stallDist := dist } }) ∧
    (∀ id ph c, s.receiving = some id → s.arbor id = .busy ph c → c.source = .wheel → m.stall = false →
      2000000 ≤ m.stallDist + d →
      let u := { s with
        meter := { m with stall := true, stallDist := 2000000, slipOpen := false, winCap := 0, winWheel := 0 }
        coiler := s.coiler.setArbor id
          (.busy ph { c with source := if c.length.mm = 0 ∧ c.length.um = 0 then .capstan else .mixed }) }
      meterCap d s = if disabled 7 then u else raise .wheel (.station staK0) 0x505 u) ∧
    (∀ id ph c, s.receiving = some id → s.arbor id = .busy ph c → c.source = .wheel → m.stall = false →
      m.stallDist + d < 2000000 → m.slipOpen = true → m.winCap + d < 10000000 →
      meterCap d s = { s with meter := { m with stallDist := dist, winCap := m.winCap + d } }) ∧
    ∀ id ph c r, s.receiving = some id → s.arbor id = .busy ph c → c.source = .wheel → s.ropeOf c.lot = some r →
      m.stall = false → m.stallDist + d < 2000000 → m.slipOpen = true → 10000000 ≤ m.winCap + d →
      let cap : Int := m.winCap + d
      let slip := clampInt (-999) 999 (Int.tdiv (1000 * (cap - m.winWheel)) cap)
      let u := { s with
        meter := { m with stallDist := dist, winCap := 0, winWheel := 0, lastSlip := some slip }
        coiler := s.coiler.setArbor id
          (.busy ph { c with
            slip := some (match c.slip with | some o => if o.natAbs < slip.natAbs then slip else o | none => slip)
            slipFlag := c.slipFlag || decide (r.slip < slip.natAbs) }) }
      meterCap d s =
        if r.slip < slip.natAbs ∧ disabled 6 = false then raise .slip (.station staK0) (BitVec.ofInt 16 slip) u else u

/-! ## Lots -/

/-- LOT_CREATE (R29): the lowest EMPTY record takes the number and kind, in DRAFT with its values at creation (R24 to
R27), with the LOT notice DRAFT; or the first refusal that applies. -/
def Obligations.LotCreateFillsTheLowestSlot : Prop :=
  ∀ (p : Port) (n : BitVec 16) (kind : Byte) (s : State), Listens p s →
    let build : Option Build :=
      if kind = 1 then some (.strand { dir := .s, lay := 20, tol := 5, turns := 4, fill := 1, ordered := 1 })
      else if kind = 2 then
        some (.rope
          { dir := .s, lay := 20, tol := 5, turns := 4, strandLot := 0, strands := 3, takeUp := 1000, coilLen := 1
            ordered := 1, slow := 0, mark := 0, slip := 1 })
      else if kind = 3 then
        some (.net { strandLot := 0, mesh := 10, knot := 0, first := 0, last := 0, head := 0, ordered := 1, missed := 0 })
      else none
    let present := ∃ (k : Slot) (l : Lot), s.lots[k] = some l ∧ l.number = n.toNat
    (build = none ∨ n = 0 → OnlyAnswers p 0x10 .outOfRange [] (.lotCreate p n kind) s) ∧
    (build ≠ none → n ≠ 0 → present → OnlyAnswers p 0x10 .duplicate [] (.lotCreate p n kind) s) ∧
    (build ≠ none → n ≠ 0 → ¬ present → (∀ k : Slot, s.lots[k] ≠ none) →
      OnlyAnswers p 0x10 .tableFull [] (.lotCreate p n kind) s) ∧
    ∀ (b : Build) (k : Slot), build = some b → n ≠ 0 → ¬ present → s.lots[k] = none → (∀ j, j < k → s.lots[j] ≠ none) →
      Answers p 0x10 .ok [] (.lotCreate p n kind) s
        (raise .lot (.lot n.toNat) 0x201 ((validArrival p s).setLot k
          (some { number := n.toNat, state := .draft, check := 0, stations := 0, build := b, started := 0, done := 0,
                  produced := 0, rejected := 0, rows := 0 })))

/-- LOT_WRITE (R30): the pairs written in order into the construction of a DRAFT lot, or nothing at all. Each pair stores
its field's value clamped to the field's range, the ordered counts not below the started count, the slowdown distance
within half the coil length, and refuses the request for another field number or a value outside the field's enumeration
(R24 to R26, R31). Every written construction is in its ranges and orders no less than was started. -/
def Obligations.LotWriteIsWhole : Prop :=
  (∀ (started : Nat) (b : Build) (clamped : Bool) (pair : Byte × BitVec 32) (rest : List (Byte × BitVec 32)),
    Build.writeAll started [] b clamped = some (b, clamped) ∧
      Build.writeAll started (pair :: rest) b clamped =
        match b.write started pair.1.toNat pair.2.toNat with
        | some (b', now) => Build.writeAll started rest b' (clamped || now)
        | none => none) ∧
  (∀ started v : Nat,
    let num := fun lo hi : Nat => max lo (min hi v)
    let count := fun hi : Nat => max (num 1 hi) started
    (∀ c : StrandLot,
      let w := fun no => Build.write (.strand c) started no v
      let put := fun (f : Nat → StrandLot) (stored : Nat) => some (Build.strand (f stored), decide (stored ≠ v))
      w 1 = (match v with
        | 0 => some (.strand { c with dir := .s }, false)
        | 1 => some (.strand { c with dir := .z }, false)
        | _ => none) ∧
      w 2 = put (fun x => { c with lay := x }) (num 20 60000) ∧ w 3 = put (fun x => { c with tol := x }) (num 5 250) ∧
      w 4 = put (fun x => { c with turns := x }) (num 4 250) ∧ w 5 = put (fun x => { c with fill := x }) (num 1 60000) ∧
      w 6 = put (fun x => { c with ordered := x }) (count 999) ∧ ∀ no, no = 0 ∨ 6 < no → w no = none) ∧
    (∀ c : RopeLot,
      let w := fun no => Build.write (.rope c) started no v
      let put := fun (f : Nat → RopeLot) (stored : Nat) => some (Build.rope (f stored), decide (stored ≠ v))
      let half := num 1 20000 * 500
      w 1 = (match v with
        | 0 => some (.rope { c with dir := .s }, false)
        | 1 => some (.rope { c with dir := .z }, false)
        | _ => none) ∧
      w 2 = put (fun x => { c with lay := x }) (num 20 60000) ∧ w 3 = put (fun x => { c with tol := x }) (num 5 250) ∧
      w 4 = put (fun x => { c with turns := x }) (num 4 250) ∧
      w 5 = (if v ≤ 65535 then some (.rope { c with strandLot := v }, false) else none) ∧
      w 6 = (if v = 3 ∨ v = 4 then some (.rope { c with strands := v }, false) else none) ∧
      w 7 = put (fun x => { c with takeUp := x }) (num 1000 1500) ∧
      w 8 = some
        (.rope { c with coilLen := num 1 20000, slow := min c.slow half },
          decide (num 1 20000 ≠ v ∨ half < c.slow)) ∧
      w 9 = put (fun x => { c with ordered := x }) (count 999) ∧
      w 10 = put (fun x => { c with slow := x }) (min v (min 65535 (c.coilLen * 500))) ∧
      w 11 = put (fun x => { c with mark := x }) (min 1000 v) ∧ w 12 = put (fun x => { c with slip := x }) (num 1 100) ∧
      ∀ no, no = 0 ∨ 12 < no → w no = none) ∧
    ∀ c : NetLot,
      let w := fun no => Build.write (.net c) started no v
      let put := fun (f : Nat → NetLot) (stored : Nat) => some (Build.net (f stored), decide (stored ≠ v))
      w 1 = (if v ≤ 65535 then some (.net { c with strandLot := v }, false) else none) ∧
      w 2 = put (fun x => { c with mesh := x }) (num 10 2000) ∧ w 3 = put (fun x => { c with knot := x }) (min 500 v) ∧
      w 4 = put (fun x => { c with first := x }) (min 255 v) ∧ w 5 = put (fun x => { c with last := x }) (min 255 v) ∧
      w 6 = some (.net { c with head := if h : v < 64 then ⟨v, h⟩ else 63 }, decide (63 < v)) ∧
      w 7 = put (fun x => { c with ordered := x }) (count 255) ∧ w 8 = put (fun x => { c with missed := x }) (min 255 v) ∧
      ∀ no, no = 0 ∨ 8 < no → w no = none) ∧
  ∀ (p : Port) (n : BitVec 16) (pairs : List (Byte × BitVec 32)) (s : State), Listens p s →
    1 ≤ pairs.length → pairs.length ≤ 12 →
    (s.lot? n.toNat = none → OnlyAnswers p 0x11 .notFound [] (.lotWrite p n pairs) s) ∧
    ∀ k l, HasLot s k l → l.number = n.toNat →
      (l.state ≠ .draft → OnlyAnswers p 0x11 .lotFrozen [] (.lotWrite p n pairs) s) ∧
      (l.state = .draft → Build.writeAll l.started pairs l.build false = none →
        OnlyAnswers p 0x11 .outOfRange [] (.lotWrite p n pairs) s) ∧
      ∀ b clamped, l.state = .draft → Build.writeAll l.started pairs l.build false = some (b, clamped) →
        Answers p 0x11 (if clamped then .clamped else .ok) [] (.lotWrite p n pairs) s
          ((validArrival p s).setLot k (some { l with build := b })) ∧
        (BuildOk l.build → l.started ≤ l.build.ordered → BuildOk b ∧ l.started ≤ b.ordered ∧ b.kindCode = l.build.kindCode)

/-- LOT_CHECK (R33, R34): an invalid plan is refused with its reason; a value that matches makes the lot READY and is
kept, with the LOT notice; one that does not match changes nothing. The computed value is answered. The reason is the
first that applies, a NET lot's chain being sound when it leads from the head along next through segments that hold rows to
END (R33). The value is the CRC-16 of the kind code, the construction fields and the chain's segments (R32). -/
def Obligations.LotCheckFreezes : Prop :=
  (∀ s : State,
    let names := fun (n : Nat) (t : StrandLot) => ∃ k l, HasLot s k l ∧ l.number = n ∧ l.build = .strand t
    let chain := fun (head : SegIx) (n : Nat) (path : Nat → SegIx) =>
      path 0 = head ∧ (∀ m, m < n → (s.segment (path m)).next = some (path (m + 1))) ∧
        (s.segment (path n)).next = none ∧ ∀ m, m ≤ n → 0 < (s.segment (path m)).rows
    let two := fun v : Nat => [BitVec.ofNat 8 (v / 256), BitVec.ofNat 8 v]
    let dir := fun d : Dir => match d with | .s => (0 : Byte) | .z => 1
    let step := fun x : TaperStep => match x with | .inward => (0xFF : Byte) | .none => 0 | .outward => 1
    let crc := fun bytes : List Byte =>
      (bytes.flatMap fun b => [7, 6, 5, 4, 3, 2, 1, 0].map b.getLsbD).foldl
        (fun (reg : BitVec 16) bit => if (reg.getLsbD 15).xor bit then (reg <<< 1) ^^^ 0x1021 else reg <<< 1) 0xFFFF
    (∀ c : StrandLot,
      planReason (.strand c) s = none ∧
      checkValue (.strand c) s =
        crc ([1, dir c.dir] ++ two c.lay ++ [BitVec.ofNat 8 c.tol, BitVec.ofNat 8 c.turns] ++ two c.fill ++ two c.ordered)) ∧
    (∀ c : RopeLot,
      ((∀ t, ¬ names c.strandLot t) → planReason (.rope c) s = some 1) ∧
      (∀ t, names c.strandLot t → planReason (.rope c) s = if c.dir = t.dir then some 2 else none) ∧
      checkValue (.rope c) s =
        crc ([2, dir c.dir] ++ two c.lay ++ [BitVec.ofNat 8 c.tol, BitVec.ofNat 8 c.turns] ++ two c.strandLot
          ++ [BitVec.ofNat 8 c.strands] ++ two c.takeUp ++ two c.coilLen ++ two c.ordered ++ two c.slow ++ two c.mark
          ++ [BitVec.ofNat 8 c.slip])) ∧
    ∀ c : NetLot,
      ((∀ t, ¬ names c.strandLot t) → planReason (.net c) s = some 1) ∧
      (∀ t, names c.strandLot t →
        (c.last < c.first → planReason (.net c) s = some 3) ∧
        (c.first ≤ c.last → (∀ n path, ¬ chain c.head n path) → planReason (.net c) s = some 4) ∧
        (c.first ≤ c.last → (∃ n path, chain c.head n path) → planReason (.net c) s = none)) ∧
      ∀ n path, chain c.head n path →
        checkValue (.net c) s =
          crc ([3] ++ two c.strandLot ++ two c.mesh ++ two c.knot
            ++ [BitVec.ofNat 8 c.first, BitVec.ofNat 8 c.last, BitVec.ofNat 8 c.head.val, BitVec.ofNat 8 c.ordered,
              BitVec.ofNat 8 c.missed]
            ++ (List.range (n + 1)).flatMap fun m =>
              let g := s.segment (path m)
              two g.rows ++ [step g.left, step g.right, BitVec.ofNat 8 g.stepRows])) ∧
  ∀ (p : Port) (n value : BitVec 16) (s : State), Listens p s →
    (s.lot? n.toNat = none → OnlyAnswers p 0x12 .notFound [] (.lotCheck p n value) s) ∧
    ∀ k l, HasLot s k l → l.number = n.toNat →
      let v := checkValue l.build s
      (l.state ≠ .draft → OnlyAnswers p 0x12 .wrongState [] (.lotCheck p n value) s) ∧
      (∀ reason, l.state = .draft → planReason l.build s = some reason →
        OnlyAnswers p 0x12 .planInvalid [0, 0, BitVec.ofNat 8 reason] (.lotCheck p n value) s) ∧
      (l.state = .draft → planReason l.build s = none → v ≠ value →
        OnlyAnswers p 0x12 .checkMismatch (bytesOf 2 v.toNat ++ [0]) (.lotCheck p n value) s) ∧
      (l.state = .draft → planReason l.build s = none → v = value →
        Answers p 0x12 .ok (bytesOf 2 v.toNat ++ [0]) (.lotCheck p n value) s
          (raise .lot (.lot n.toNat) 0x202
            ((validArrival p s).setLot k (some { l with check := v, state := .ready }))))

/-- LOT_REOPEN, LOT_HOLD and LOT_RESUME (R35, R40, R41): the lot's state with its LOT notice, and LOT_HOLD raised on or
removed from every station of its stations set; refused in the other states. That LOT_RESUME of a COMPLETE or CLOSED lot not
reached while held is answered OK is the model's choice (assumption log 19), and so is the order of the stations (assumption
log 7). -/
def Obligations.LotsReopenHoldResume : Prop :=
  ∀ (p : Port) (n : BitVec 16) (s : State), Listens p s →
    let a := validArrival p s
    (s.lot? n.toNat = none →
      OnlyAnswers p 0x13 .notFound [] (.lotReopen p n) s ∧ OnlyAnswers p 0x14 .notFound [] (.lotHold p n) s ∧
        OnlyAnswers p 0x15 .notFound [] (.lotResume p n) s) ∧
    ∀ k l, HasLot s k l → l.number = n.toNat →
      let stateTo := fun (st : LotState) => raise .lot (.lot n.toNat) st.word (a.setLot k (some { l with state := st }))
      (l.state = .ready → Answers p 0x13 .ok [] (.lotReopen p n) s (stateTo .draft)) ∧
      (l.state ≠ .ready → OnlyAnswers p 0x13 .wrongState [] (.lotReopen p n) s) ∧
      (l.state = .active → Answers p 0x14 .ok [] (.lotHold p n) s (raiseOnAll l.stations .lotHold (stateTo .held))) ∧
      (l.state = .held → OnlyAnswers p 0x14 .ok [] (.lotHold p n) s) ∧
      (l.state ≠ .active → l.state ≠ .held → OnlyAnswers p 0x14 .wrongState [] (.lotHold p n) s) ∧
      (l.state = .held → Answers p 0x15 .ok [] (.lotResume p n) s
        (removeFromAll l.stations .lotHold (stateTo (if l.stations = 0 then .ready else .active)))) ∧
      (l.state = .complete ∨ l.state = .closed →
        Answers p 0x15 .ok [] (.lotResume p n) s (removeFromAll l.stations .lotHold a)) ∧
      (l.state = .draft ∨ l.state = .ready ∨ l.state = .active →
        OnlyAnswers p 0x15 .wrongState [] (.lotResume p n) s)

/-- LOT_CLOSE and LOT_DELETE (R42, R43, R154): CLOSED with its notice, LOT_END on every station of the lot, and an arbor
winding for the lot ended, as a dropped empty coil or a remnant; EMPTY with its notice when nothing refers to a CLOSED or
DRAFT lot. The order of the stations is the model's choice (assumption log 7). -/
def Obligations.LotsCloseAndGo : Prop :=
  ∀ (p : Port) (n : BitVec 16) (s : State), Listens p s →
    let a := validArrival p s
    (s.lot? n.toNat = none →
      OnlyAnswers p 0x16 .notFound [] (.lotClose p n) s ∧ OnlyAnswers p 0x17 .notFound [] (.lotDelete p n) s) ∧
    ∀ k l, HasLot s k l → l.number = n.toNat →
      let ended := raiseOnAll l.stations .lotEnd
        (raise .lot (.lot n.toNat) 0x206 (a.setLot k (some { l with state := .closed })))
      let refers :=
        (∃ i, (s.station i).lot = some n.toNat) ∨ (∃ b ∈ s.bobbins, b.lot = some n.toNat ∧ b.state ≠ .spare) ∨
          (∃ id c, (s.arbor id).coil? = some c ∧ c.lot = n.toNat) ∨ ∃ c ∈ s.coiler.outbound, c.lot = n.toNat
      (l.state = .draft ∨ l.state = .closed → OnlyAnswers p 0x16 .wrongState [] (.lotClose p n) s) ∧
      (l.state ≠ .draft → l.state ≠ .closed →
        ((∀ id c, s.windingArbor = some id → (s.arbor id).coil? = some c → c.lot ≠ n.toNat) →
          Answers p 0x16 .ok [] (.lotClose p n) s ended) ∧
        ∀ id ph c, s.windingArbor = some id → s.arbor id = .busy ph c → c.lot = n.toNat →
          (c.length.mm = 0 ∧ c.length.um = 0 →
            Answers p 0x16 .ok [] (.lotClose p n) s { ended with
              coiler := s.coiler.setArbor id .free
              meter := { s.meter with slipOpen := false, winCap := 0, winWheel := 0 }
              lots := s.lots.set k (some { l with state := .closed, started := l.started - 1 }) }) ∧
          (0 < c.length.mm ∨ 0 < c.length.um →
            let cut := raiseCause staC0 .cutStop
              (ended.setCoiler (s.coiler.setArbor id (.busy .cutting { c with remnant := true })))
            Answers p 0x16 .ok [] (.lotClose p n) s
              (if (s.arbor id.other).isFree then cut else raiseCause staC0 .arborBusy cut))) ∧
      ((l.state = .closed ∨ l.state = .draft) → ¬ refers →
        Answers p 0x17 .ok [] (.lotDelete p n) s (raise .lot (.lot n.toNat) 0x200 (a.setLot k none))) ∧
      ((l.state ≠ .closed ∧ l.state ≠ .draft) ∨ refers → OnlyAnswers p 0x17 .wrongState [] (.lotDelete p n) s)

/-- LOT_ATTACH of a strander or a loom (R36, R37, R20, R28, R97, R124): the station takes the lot and goes to STANDBY, the
lot takes the station and a READY lot becomes ACTIVE; a strander's accumulator starts at 0, and a loom's position at the
head of the plan, the loom HALTED under FEED_OUT where a feed holds a RUN_OUT bobbin. Refused for a lot of another kind and
for a feed that holds a bobbin of another strand lot. -/
def Obligations.AttachGivesAStationItsLot : Prop :=
  (∀ (p : Port) (i : Sta) (n : BitVec 16) (s : State), Listens p s → Steers p i s →
    ((s.station i).state ≠ .idle → OnlyAnswers p 0x1A .wrongState [] (.lotAttach p (staByte i) n) s) ∧
    ((s.station i).state = .idle → s.lot? n.toNat = none →
      OnlyAnswers p 0x1A .notFound [] (.lotAttach p (staByte i) n) s) ∧
    ∀ k l, (s.station i).state = .idle → HasLot s k l → l.number = n.toNat → l.state ≠ .ready → l.state ≠ .active →
      OnlyAnswers p 0x1A .wrongState [] (.lotAttach p (staByte i) n) s) ∧
  ∀ (p : Port) (i : Sta) (n : BitVec 16) (k : Slot) (l : Lot) (s : State), Listens p s → Steers p i s →
    (s.station i).state = .idle → HasLot s k l → l.number = n.toNat → l.state = .ready ∨ l.state = .active →
    let a := validArrival p s
    let r := { s.station i with lot := some n.toNat }
    let joined := (a.setStation i r).setLot k
      (some { l with stations := l.stations ||| BitVec.twoPow 8 i.val, state := .active })
    let told := fun u : State => if l.state = .ready then raise .lot (.lot n.toNat) 0x203 u else u
    (∀ (t : Twi) (c : StrandLot), i = twiSta t → t ≠ 4 → l.build = .strand c →
      Answers p 0x1A .ok [] (.lotAttach p (staByte i) n) s
        (writeStation i { r with state := .standby } (told (joined.setTwist t { s.twist t with acc := ⟨0, 0⟩ })))) ∧
    (∀ (m : Loom) (c : NetLot), i = loomSta m → l.build = .net c →
      ((∃ f b, s.bobbinAt (.feed m f) = some b ∧ b.lot ≠ some c.strandLot) →
        OnlyAnswers p 0x1A .wrongLot [] (.lotAttach p (staByte i) n) s) ∧
      ((∀ f b, s.bobbinAt (.feed m f) = some b → b.lot = some c.strandLot) →
      let top := s.settings.needles[m] - 1
      let u := (writeStation i { r with state := .standby } (told joined)).setLoom m
        { inPanel := false, endPending := false, segment := c.head, rowIn := 1, row := 1, first := min c.first top
          last := min c.last top, clampNoted := false, panel := 0, openRow := false, lastTaken := none
          lastAnswer := none, shortfall := ⟨0, 0⟩, faults := [], overflow := false }
      ((∀ f b, s.bobbinAt (.feed m f) = some b → b.state ≠ .runOut) →
        Answers p 0x1A .ok [] (.lotAttach p (staByte i) n) s u) ∧
      (∀ f b, s.bobbinAt (.feed m f) = some b → b.state = .runOut → r.causes = 0 →
        ∃ v, Answers p 0x1A .ok [] (.lotAttach p (staByte i) n) s v ∧
          v = { u with stations := v.stations, ports := v.ports, queues := v.queues } ∧
          v.stations = u.stations.set i { r with state := .halted, causes := 0x040 }))) ∧
    (l.build.fits (kindOf i) = false → OnlyAnswers p 0x1A .wrongLot [] (.lotAttach p (staByte i) n) s)

/-- LOT_ATTACH of C0 (R37, R95, R97, R130, R135): C0 goes to STANDBY, or to HALTED under FEED_OUT where a position in use
holds a RUN_OUT bobbin; K0 goes to ACTIVE with it; the lot takes both; the accumulators, the tallies and the metering unit
start at 0. -/
def Obligations.AttachOfThePair : Prop :=
  ∀ (p : Port) (n : BitVec 16) (k : Slot) (l : Lot) (c : RopeLot) (s : State), Listens p s → Steers p staC0 s →
    (s.station staC0).state = .idle → (s.station staC0).causes = 0 → HasLot s k l → l.number = n.toNat →
    l.state = .ready ∨ l.state = .active → l.build = .rope c →
    ((s.station staK0).state ≠ .idle → OnlyAnswers p 0x1A .wrongState [] (.lotAttach p (staByte staC0) n) s) ∧
    ((s.station staK0).state = .idle →
      ((∃ (j : Pos) (b : Bobbin), s.bobbinAt (.closer j) = some b ∧ (b.lot ≠ some c.strandLot ∨ b.dir = some c.dir)) →
        OnlyAnswers p 0x1A .wrongLot [] (.lotAttach p (staByte staC0) n) s) ∧
      ((∀ (j : Pos) (b : Bobbin), s.bobbinAt (.closer j) = some b → b.lot = some c.strandLot ∧ b.dir ≠ some c.dir) →
        ∃ u, Answers p 0x1A .ok [] (.lotAttach p (staByte staC0) n) s u ∧
          u = { s with
            stations := u.stations, twists := u.twists, ports := u.ports, queues := u.queues, lots := u.lots
            coiler := { s.coiler with wheelTally := ⟨0, 0⟩, unassigned := ⟨0, 0⟩ }
            closerShort := ⟨0, 0⟩
            meter := { stall := false, stallDist := 0, slipOpen := false, winCap := 0, winWheel := 0, lastSlip := none } } ∧
          u.lots = s.lots.set k (some { l with stations := l.stations ||| 0x90, state := .active }) ∧
          u.twists = s.twists.set 4 { s.twist 4 with acc := ⟨0, 0⟩ } ∧
          u.station staK0 = { s.station staK0 with lot := some n.toNat, state := .active } ∧
          (∀ i, i ≠ staC0 → i ≠ staK0 → u.station i = s.station i) ∧
          ((∃ (j : Pos) (b : Bobbin), j.val < c.strands ∧ s.bobbinAt (.closer j) = some b ∧ b.state = .runOut) →
            u.station staC0 = { s.station staC0 with lot := some n.toNat, state := .halted, causes := 0x040 }) ∧
          ((∀ (j : Pos) (b : Bobbin), j.val < c.strands → s.bobbinAt (.closer j) = some b → b.state ≠ .runOut) →
            u.station staC0 = { s.station staC0 with lot := some n.toNat, state := .standby })))

/-- LOT_DETACH (R3, R38, R39): the station loses its lot and its conditional causes and goes to IDLE, or to HALTED under
the causes left; the lot loses the station, and an ACTIVE lot with none left goes to READY. Refused without a lot, while the
station runs, while a strander has its WINDING bobbin, and while an arbor is not FREE. -/
def Obligations.DetachTakesTheLotAway : Prop :=
  (∀ (p : Port) (i : Sta) (s : State), Listens p s → Steers p i s → (s.station i).lot = none →
    OnlyAnswers p 0x1B .wrongState [] (.lotDetach p (staByte i)) s) ∧
  ∀ (p : Port) (i : Sta) (k : Slot) (l : Lot) (s : State), Listens p s → Steers p i s →
    (s.station i).lot = some l.number → HasLot s k l →
    let a := validArrival p s
    let gone := fun j : Sta =>
      let r := s.station j
      let x := r.causes &&& 0x01F
      { r with lot := none, causes := x, state := if x = 0 then RunState.idle else .halted }
    let lose := fun (set : BitSet 8) (m : Lot) (u : State) =>
      if m.state = .active ∧ m.stations &&& ~~~set = 0 then
        raise .lot (.lot l.number) 0x202 (u.setLot k (some { m with stations := m.stations &&& ~~~set, state := .ready }))
      else u.setLot k (some { m with stations := m.stations &&& ~~~set })
    (stationRuns i s = true ∨ i = staK0 ∨ (i = staC0 ∧ ¬(s.coiler.a = .free ∧ s.coiler.b = .free)) ∨
        (∃ (j : Strander) (b : Bobbin), strSta j = i ∧ s.bobbinAt (.winding j) = some b ∧ b.state = .winding) →
      OnlyAnswers p 0x1B .wrongState [] (.lotDetach p (staByte i)) s) ∧
    (stationRuns i s = false →
      (∀ j, strSta j = i → (∀ b, s.bobbinAt (.winding j) = some b → b.state ≠ .winding) →
        Answers p 0x1B .ok [] (.lotDetach p (staByte i)) s (writeStation i (gone i) (lose (BitVec.twoPow 8 i.val) l a))) ∧
      (∀ m, loomSta m = i → (s.loom m).inPanel = false →
        Answers p 0x1B .ok [] (.lotDetach p (staByte i)) s (writeStation i (gone i) (lose (BitVec.twoPow 8 i.val) l a))) ∧
      (∀ m, loomSta m = i → (s.loom m).inPanel = true →
        let q := { l with started := l.started - 1, rejected := min 255 (l.rejected + 1) }
        Answers p 0x1B .ok [] (.lotDetach p (staByte i)) s
          (writeStation i (gone i) (lose (BitVec.twoPow 8 i.val) q
            (raise .row (.station i) 0x601
              ((a.setLoom m { s.loom m with inPanel := false, endPending := false }).setLot k (some q)))))) ∧
      (i = staC0 → s.coiler.a = .free → s.coiler.b = .free →
        Answers p 0x1B .ok [] (.lotDetach p (staByte i)) s
          (writeStation staK0 (gone staK0) (writeStation staC0 (gone staC0)
            ({ lose 0x90 l a with meter := { s.meter with slipOpen := false, winCap := 0, winWheel := 0 } })))))

/-! ## Running and stopping -/

/-- STATION_RUN of a twisting station (R64, R65, R48, R21, R71, R140): from STANDBY, a strander with its WINDING bobbin
and C0 with its positions MOUNTED go to RUN_UP, with the window, the phase timers and the stillness timer started. C0
first starts a coil, on arbor A or else B, where no arbor is WINDING or SLOWING. -/
def Obligations.RunStartsTheTwist : Prop :=
  ∀ (p : Port) (t : Twi) (s : State), Listens p s → Steers p (twiSta t) s →
    let i := twiSta t
    let r := s.station i
    let w := s.twist t
    let a := validArrival p s
    let started := fun u : State => writeStation i { r with state := .runUp } (u.setTwist t
      { w with
        lay :=
          { w.lay with
            isOpen := true, closeCount := s.turns t * s.settings.flyer[t], p := 0, dl := 0, openMs := s.nowMs
            seedPending := true, good := 0, drift := 0 }
        runUp := { count := 0, running := some (s.nowMs, s.settings.scale.ms) }
        runDown := { count := 0, running := none }
        runUpLong := false, runDownLong := false, stillMs := some s.nowMs })
    (r.state ≠ .standby → OnlyAnswers p 0x28 .wrongState [] (.stationRun p (staByte i)) s) ∧
    (∀ k, strSta k = i → r.state = .standby →
      ((∃ b, s.bobbinAt (.winding k) = some b ∧ b.state = .winding) →
        Answers p 0x28 .ok [] (.stationRun p (staByte i)) s (started a)) ∧
      ((∀ b, s.bobbinAt (.winding k) = some b → b.state ≠ .winding) →
        OnlyAnswers p 0x28 .noBobbin [] (.stationRun p (staByte i)) s)) ∧
    (t = 4 → r.state = .standby →
      ((∃ pl ∈ usedPlaces staC0 s, ∀ b, s.bobbinAt pl = some b → b.state ≠ .mounted) →
        OnlyAnswers p 0x28 .feedMissing [] (.stationRun p (staByte i)) s) ∧
      ((∀ pl ∈ usedPlaces staC0 s, ∃ b, s.bobbinAt pl = some b ∧ b.state = .mounted) →
        (s.windingArbor ≠ none → Answers p 0x28 .ok [] (.stationRun p (staByte i)) s (started a)) ∧
        ∀ id k l c, s.windingArbor = none → (s.arbor id) = .free → (id = .b → s.coiler.a ≠ .free) → HasLot s k l →
          r.lot = some l.number → l.build = .rope c → l.started < c.ordered → l.state ≠ .closed → BobbinsOk s →
          let coil : Coil :=
            { tag := none, lot := l.number, seq := l.started + 1, length := ⟨0, 0⟩, overrun := 0
              source := if s.meter.stall then .capstan else .wheel
              slip := none, slipFlag := false, minF := none, maxF := none, drift := 0, shortfall := ⟨0, 0⟩
              bobbins := c.positions.filterMap fun j => (s.bobbinAt (.closer j)).map Bobbin.id
              overflow := false, remnant := false, start := BitVec.ofNat 32 s.nowMs, cut := none }
          Answers p 0x28 .ok [] (.stationRun p (staByte i)) s
            (started { a with
              lots := s.lots.set k (some { l with started := l.started + 1 })
              coiler := s.coiler.setArbor id (.busy .winding coil)
              meter := if s.meter.stall then s.meter else { s.meter with slipOpen := true, winCap := 0, winWheel := 0 } })))

/-- STATION_RUN of a loom (R109, R111): from STANDBY with both feeds MOUNTED it opens the row of the panel in progress, or
starts a panel that the lot grants and opens its first row, goes to KNOTTING and answers the row order. -/
def Obligations.RunStartsTheLoom : Prop :=
  ∀ (p : Port) (m : Loom) (s : State), Listens p s → Steers p (loomSta m) s →
    let i := loomSta m
    let r := s.station i
    let q := s.loom m
    let a := validArrival p s
    let order := fun x : LoomPos => bytesOf 2 x.panel ++ bytesOf 3 x.row ++ bytesOf 1 x.first ++ bytesOf 1 x.last
    let ready := ∀ f, ∃ b, s.bobbinAt (.feed m f) = some b ∧ b.state = .mounted
    (r.state ≠ .standby → OnlyAnswers p 0x28 .wrongState [] (.stationRun p (staByte i)) s) ∧
    (r.state = .standby → ¬ ready → OnlyAnswers p 0x28 .feedMissing [] (.stationRun p (staByte i)) s) ∧
    (r.state = .standby → ready → q.inPanel = true →
      Answers p 0x28 .ok (order q) (.stationRun p (staByte i)) s
        (writeStation i { r with state := .knotting } (a.setLoom m { q with openRow := true }))) ∧
    ∀ k l c, r.state = .standby → ready → q.inPanel = false → HasLot s k l → r.lot = some l.number → l.build = .net c →
      (l.started < c.ordered → l.state ≠ .closed →
        let top := s.settings.needles[m] - 1
        let x :=
          { q with
            inPanel := true, endPending := false, segment := c.head, rowIn := 1, row := 1, first := min c.first top
            last := min c.last top, clampNoted := false, panel := min 65535 (q.panel + 1), openRow := true }
        Answers p 0x28 .ok (order x) (.stationRun p (staByte i)) s
          (writeStation i { r with state := .knotting }
            ((a.setLoom m x).setLot k (some { l with started := l.started + 1 })))) ∧
      (c.ordered ≤ l.started ∨ l.state = .closed → OnlyAnswers p 0x28 .lotEnd [] (.stationRun p (staByte i)) s)

/-- STATION_STOP (R67, R68, R112): a running twisting station enters RUN_DOWN with its window discarded and its timers
set; a loom in KNOTTING goes to STANDBY; an IDLE station refuses and any other is left as it is. K0 is neither run nor
stopped. -/
def Obligations.StopEndsTheRun : Prop :=
  ∀ (p : Port) (s : State), Listens p s →
    let a := validArrival p s
    (∀ t, Steers p (twiSta t) s →
      let i := twiSta t
      let r := s.station i
      let w := s.twist t
      (r.state = .runUp ∨ r.state = .steady → Answers p 0x29 .ok [] (.stationStop p (staByte i)) s
        (writeStation i { r with state := .runDown } (a.setTwist t
          { w with
            lay := { w.lay with isOpen := false, p := 0, dl := 0 }
            stillMs := some s.nowMs
            runUp := { count := w.runUp.reading s.nowMs, running := none }
            runDown := { count := 0, running := some (s.nowMs, s.settings.scale.ms) } }))) ∧
      (r.state = .idle → OnlyAnswers p 0x29 .wrongState [] (.stationStop p (staByte i)) s) ∧
      (r.state = .standby ∨ r.state = .runDown ∨ r.state = .halted →
        OnlyAnswers p 0x29 .ok [] (.stationStop p (staByte i)) s)) ∧
    (∀ m, Steers p (loomSta m) s →
      let i := loomSta m
      let r := s.station i
      (r.state = .knotting → Answers p 0x29 .ok [] (.stationStop p (staByte i)) s
        (writeStation i { r with state := .standby } a)) ∧
      (r.state = .idle → OnlyAnswers p 0x29 .wrongState [] (.stationStop p (staByte i)) s) ∧
      (r.state = .standby ∨ r.state = .rowHold ∨ r.state = .halted →
        OnlyAnswers p 0x29 .ok [] (.stationStop p (staByte i)) s)) ∧
    (Steers p staK0 s →
      OnlyAnswers p 0x28 .wrongState [] (.stationRun p (staByte staK0)) s ∧
        OnlyAnswers p 0x29 .wrongState [] (.stationStop p (staByte staK0)) s)

/-! ## Bobbins -/

/-- BOBBIN_REGISTER (R84): a new SPARE record in ascending id order with its capacity clamped, or the first refusal that
applies. -/
def Obligations.RegisterMakesASpareBobbin : Prop :=
  ∀ (p : Port) (n : BitVec 16) (capacity : BitVec 32) (s : State), Listens p s →
    (n = 0 → OnlyAnswers p 0x30 .outOfRange [] (.bobbinRegister p n capacity) s) ∧
    (n ≠ 0 → (∃ b ∈ s.bobbins, b.id = n.toNat) → OnlyAnswers p 0x30 .duplicate [] (.bobbinRegister p n capacity) s) ∧
    (n ≠ 0 → (∀ b ∈ s.bobbins, b.id ≠ n.toNat) → 64 ≤ s.bobbins.length →
      OnlyAnswers p 0x30 .tableFull [] (.bobbinRegister p n capacity) s) ∧
    (n ≠ 0 → (∀ b ∈ s.bobbins, b.id ≠ n.toNat) → s.bobbins.length < 64 → BobbinsOk s →
      let cap := max 1000 (min 100000000 capacity.toNat)
      let b : Bobbin :=
        { id := n.toNat, capacity := cap, state := .spare, lot := none, dir := none, wound := ⟨0, 0⟩, drawn := ⟨0, 0⟩
          fillPoint := none, place := none, overwind := false, low := false }
      Answers p 0x30 (if cap = capacity.toNat then .ok else .clamped) [] (.bobbinRegister p n capacity) s
        { validArrival p s with
          bobbins := s.bobbins.filter (·.id < n.toNat) ++ b :: s.bobbins.filter (n.toNat < ·.id) })

/-- BOBBIN_REMOVE (R85): a SPARE record is deleted. BOBBIN_RETURN (R92): a PART or SPENT bobbin becomes SPARE with no lot,
no lay direction, nothing wound or drawn and its low mark clear, and no lot's length produced changes. A bobbin in any
other state is refused, and so is an id of no record. -/
def Obligations.RemoveAndReturn : Prop :=
  ∀ (p : Port) (n : BitVec 16) (s : State), Listens p s →
    (∀ b, s.bobbin? n.toNat = some b → b.state = .spare →
      Answers p 0x31 .ok [] (.bobbinRemove p n) s
        { validArrival p s with bobbins := s.bobbins.filter (·.id ≠ n.toNat) }) ∧
    (∀ b, s.bobbin? n.toNat = some b → b.state ≠ .spare → OnlyAnswers p 0x31 .wrongState [] (.bobbinRemove p n) s) ∧
    ((∀ b ∈ s.bobbins, b.id ≠ n.toNat) → OnlyAnswers p 0x31 .notFound [] (.bobbinRemove p n) s) ∧
    (∀ b, s.bobbin? n.toNat = some b → b.state = .part ∨ b.state = .spent →
      Answers p 0x36 .ok [] (.bobbinReturn p n) s
        { validArrival p s with
          bobbins := withBobbin
            { b with state := .spare, lot := none, dir := none, wound := ⟨0, 0⟩, drawn := ⟨0, 0⟩, low := false }
            s.bobbins }) ∧
    (∀ b, s.bobbin? n.toNat = some b → b.state ≠ .part → b.state ≠ .spent →
      OnlyAnswers p 0x36 .wrongState [] (.bobbinReturn p n) s) ∧
    ((∀ b ∈ s.bobbins, b.id ≠ n.toNat) → OnlyAnswers p 0x36 .notFound [] (.bobbinReturn p n) s)

/-- BOBBIN_ISSUE and BOBBIN_DOFF (R86, R88, R3, R7, R27): a SPARE bobbin goes to the strander's winding place for the lot,
with a start counted and BOBBIN_FULL removed; a doffed bobbin is FULL and counted as filled or, with nothing wound, SPARE
with its start withdrawn. The order of the stations under LOT_END is the model's choice (assumption log 7). -/
def Obligations.IssueAndDoff : Prop :=
  (∀ (p : Port) (i : Sta) (n : BitVec 16) (s : State), Listens p s → Steers p i s → 4 ≤ i.val →
    OnlyAnswers p 0x32 .outOfRange [] (.bobbinIssue p (staByte i) n) s ∧
      OnlyAnswers p 0x33 .outOfRange [] (.bobbinDoff p (staByte i)) s) ∧
  ∀ (p : Port) (j : Strander) (s : State), Listens p s → Steers p (strSta j) s →
    let i := strSta j
    let r := s.station i
    let a := validArrival p s
    (∀ (n : BitVec 16),
      (s.bobbin? n.toNat = none → OnlyAnswers p 0x32 .notFound [] (.bobbinIssue p (staByte i) n) s) ∧
      ∀ b, s.bobbin? n.toNat = some b →
        (b.state ≠ .spare ∨ r.lot = none → OnlyAnswers p 0x32 .wrongState [] (.bobbinIssue p (staByte i) n) s) ∧
        ∀ k l c, b.state = .spare → HasLot s k l → r.lot = some l.number → l.build = .strand c →
          ((∃ x, s.bobbinAt (.winding j) = some x) →
            OnlyAnswers p 0x32 .wrongState [] (.bobbinIssue p (staByte i) n) s) ∧
          (s.bobbinAt (.winding j) = none → c.ordered ≤ l.started ∨ l.state = .closed →
            OnlyAnswers p 0x32 .lotEnd [] (.bobbinIssue p (staByte i) n) s) ∧
          (s.bobbinAt (.winding j) = none → l.started < c.ordered → l.state ≠ .closed →
            let u := { a with
              lots := s.lots.set k (some { l with started := l.started + 1 })
              bobbins := withBobbin
                { b with
                  state := .winding, place := some (.winding j), lot := some l.number, dir := some c.dir
                  fillPoint := some (min (c.fill * 1000) b.capacity), overwind := false } s.bobbins }
            Answers p 0x32 .ok [] (.bobbinIssue p (staByte i) n) s
              (if hasCause r.causes .bobbinFull then writeStation i (emptied i (r.causes &&& 0xFDF) r) u else u))) ∧
    (r.state = .runUp ∨ r.state = .steady ∨ r.state = .runDown →
      OnlyAnswers p 0x33 .wrongState [] (.bobbinDoff p (staByte i)) s) ∧
    (r.state = .idle ∨ r.state = .standby ∨ r.state = .halted →
      ((∀ b, s.bobbinAt (.winding j) = some b → b.state ≠ .winding) →
        OnlyAnswers p 0x33 .noBobbin [] (.bobbinDoff p (staByte i)) s) ∧
      ∀ b k l, s.bobbinAt (.winding j) = some b → b.state = .winding → b.lot = some l.number → HasLot s k l →
        (b.wound.mm = 0 →
          Answers p 0x33 .ok [] (.bobbinDoff p (staByte i)) s
            { a with
              lots := s.lots.set k (some { l with started := l.started - 1 })
              bobbins := withBobbin
                { b with state := .spare, place := none, fillPoint := none, lot := none, dir := none, wound := ⟨0, 0⟩ }
                s.bobbins }) ∧
        (0 < b.wound.mm →
          let l' := { l with produced := min 4294967295 (l.produced + b.wound.mm), done := l.done + 1 }
          let bs := withBobbin { b with state := .full, place := none, fillPoint := none } s.bobbins
          ((l.done + 1 ≠ l.build.ordered ∨ (l.state ≠ .active ∧ l.state ≠ .held)) →
            Answers p 0x33 .ok [] (.bobbinDoff p (staByte i)) s
              { a with lots := s.lots.set k (some l'), bobbins := bs }) ∧
          (l.done + 1 = l.build.ordered → l.state = .active ∨ l.state = .held →
            Answers p 0x33 .ok [] (.bobbinDoff p (staByte i)) s
              (raiseOnAll l.stations .lotEnd (raise .lot (.lot l.number) 0x205
                { a with lots := s.lots.set k (some { l' with state := .complete }), bobbins := bs })))))

/-- BOBBIN_MOUNT and BOBBIN_DISMOUNT (R89 to R91): a FULL or PART bobbin of the strand lot goes to the place, with its low
mark, a zero residue on C0, its id on C0's winding coil and FEED_OUT gone once every place in use is MOUNTED; at rest a
MOUNTED bobbin leaves as PART and a RUN_OUT one as SPENT; and the refusals of both. The order of the notices of one mount is
the model's choice (assumption log 7). -/
def Obligations.MountAndDismount : Prop :=
  (∀ (p : Port) (i : Sta) (code : Byte) (n : BitVec 16) (s : State), Listens p s → Steers p i s → placeOf i code = none →
    OnlyAnswers p 0x34 .outOfRange [] (.bobbinMount p (staByte i) code n) s ∧
      OnlyAnswers p 0x35 .outOfRange [] (.bobbinDismount p (staByte i) code) s) ∧
  ∀ (p : Port) (i : Sta) (code : Byte) (pl : Place) (s : State), Listens p s → Steers p i s → placeOf i code = some pl →
    let r := s.station i
    let a := validArrival p s
    (∀ n : BitVec 16,
      (s.bobbin? n.toNat = none → OnlyAnswers p 0x34 .notFound [] (.bobbinMount p (staByte i) code n) s) ∧
      (s.bobbin? n.toNat ≠ none → r.lot = none →
        OnlyAnswers p 0x34 .wrongState [] (.bobbinMount p (staByte i) code n) s) ∧
      ∀ k l c, s.bobbin? n.toNat ≠ none → HasLot s k l → r.lot = some l.number → l.build = .rope c → c.strands = 3 →
        pl = .closer 3 → OnlyAnswers p 0x34 .outOfRange [] (.bobbinMount p (staByte i) code n) s) ∧
    (∀ (n : BitVec 16) (b : Bobbin) (k : Slot) (l : Lot), s.bobbin? n.toNat = some b → HasLot s k l → r.lot = some l.number →
      pl ∈ usedPlaces i s →
      ((b.state ≠ .full ∧ b.state ≠ .part) ∨ s.bobbinAt pl ≠ none →
        OnlyAnswers p 0x34 .wrongState [] (.bobbinMount p (staByte i) code n) s) ∧
      ((b.state = .full ∨ b.state = .part) → s.bobbinAt pl = none → b.lot ≠ some l.build.strandLot →
        OnlyAnswers p 0x34 .wrongLot [] (.bobbinMount p (staByte i) code n) s) ∧
      ((b.state = .full ∨ b.state = .part) → s.bobbinAt pl = none → b.lot = some l.build.strandLot →
        i = staC0 → b.dir = l.build.ropeDir →
        OnlyAnswers p 0x34 .wrongLot [] (.bobbinMount p (staByte i) code n) s) ∧
      ((b.state = .full ∨ b.state = .part) → s.bobbinAt pl = none → b.lot = some l.build.strandLot →
        (i = staC0 → b.dir ≠ l.build.ropeDir) →
        let low : Bool := decide (b.wound.total - b.drawn.total < s.settings.lowMark * 1000)
        let bs := withBobbin { b with state := .mounted, place := some pl, low := low } s.bobbins
        let told := fun u : State =>
          if low = true ∧ s.settings.disable.getLsbD 5 = false then raise .bobbin (.bobbin b.id) 0x504 u else u
        let restored := fun u : State =>
          if hasCause r.causes .feedOut = true ∧
              (∀ x ∈ usedPlaces i s, ∃ y, { s with bobbins := bs }.bobbinAt x = some y ∧ y.state = .mounted) then
            writeStation i (emptied i (r.causes &&& 0xFBF) r)
              (raise .feed (.station i) 0x406 u)
          else u
        (∀ m f, pl = .feed m f →
          Answers p 0x34 .ok [] (.bobbinMount p (staByte i) code n) s (restored (told { a with bobbins := bs }))) ∧
        (∀ x, pl = .closer x →
          Answers p 0x34 .ok [] (.bobbinMount p (staByte i) code n) s
            (restored ({ told { a with bobbins := bs } with
              residues := s.residues.set x 0
              coiler :=
                match s.windingArbor with
                | some arbor =>
                  match s.arbor arbor with
                  | .busy ph c => s.coiler.setArbor arbor (.busy ph (c.addBobbin b.id))
                  | .free => s.coiler
                | none => s.coiler }))))) ∧
    (s.bobbinAt pl = none ∨ stationRuns i s = true →
      OnlyAnswers p 0x35 .wrongState [] (.bobbinDismount p (staByte i) code) s) ∧
    ∀ b, s.bobbinAt pl = some b → stationRuns i s = false →
      Answers p 0x35 .ok [] (.bobbinDismount p (staByte i) code) s
        { a with
          bobbins := withBobbin
            { b with place := none, state := if b.state = .runOut then .spent else .part } s.bobbins }

/-! ## Knotting -/

/-- SEGMENT_WRITE (R103, R104): refused for an index, step or link out of range, and for a segment reached from the head
of a NET lot that freezes it; otherwise the record is replaced, its numeric values clamped. A segment is frozen exactly
when some NET lot in READY, ACTIVE, HELD or COMPLETE reaches it from its head along next, through segments that hold rows.
-/
def Obligations.SegmentWriteRespectsFreezing : Prop :=
  (∀ (i : SegIx) (s : State),
    frozen i s = true ↔
      ∃ (k : Slot) (l : Lot) (c : NetLot) (n : Nat) (path : Nat → SegIx),
        s.lots[k] = some l ∧ l.build = .net c ∧ l.state ≠ .draft ∧ l.state ≠ .closed ∧ path 0 = c.head ∧ path n = i ∧
          ∀ m, m < n → 0 < (s.segment (path m)).rows ∧ (s.segment (path m)).next = some (path (m + 1))) ∧
  ∀ (p : Port) (rows : BitVec 16) (left right stepRows next : Byte) (s : State), Listens p s →
    (∀ index : Byte, 63 < index.toNat ∨ TaperStep.ofByte left = none ∨ TaperStep.ofByte right = none ∨
        (63 < next.toNat ∧ next ≠ 0xFF) →
      OnlyAnswers p 0x40 .outOfRange [] (.segmentWrite p index rows left right stepRows next) s) ∧
    ∀ (i : SegIx) (l r : TaperStep), TaperStep.ofByte left = some l → TaperStep.ofByte right = some r →
      (next.toNat < 64 ∨ next = 0xFF) →
      let g : Segment :=
        { rows := min 4095 rows.toNat, left := l, right := r, stepRows := max 1 (min 63 stepRows.toNat)
          next := if h : next.toNat < 64 then some ⟨next.toNat, h⟩ else none }
      (frozen i s = true →
        OnlyAnswers p 0x40 .lotFrozen [] (.segmentWrite p (BitVec.ofNat 8 i.val) rows left right stepRows next) s) ∧
      (frozen i s = false →
        Answers p 0x40 (if g.rows = rows.toNat ∧ g.stepRows = stepRows.toNat then .ok else .clamped) []
          (.segmentWrite p (BitVec.ofNat 8 i.val) rows left right stepRows next) s
          ((validArrival p s).setSegment i g))

/-- ROW_REPORT with an open row of that number (R110, R113 to R118). Where both feeds give what the row draws and the
segment goes on, the row is closed, its knots are compared, its twine drawn, the range tapered, the position advanced, and
the next row opened and ordered. In general, after the comparison, the charges (with a run-out or a low mark as R95, R96)
and the taper, the position goes on in its segment, or to the next one, or the chain has ended. HOLD, with the panel's end
pending where the chain ended; STOP where the loom is not KNOTTING with an empty cause set; NEXT; or the panel ends done,
and a next panel is started or its start refused, or the lot completes. Two things are the model's choice: the order of the
notices is that of the steps, FEED_OUT's before a completed lot's too (assumption log 7); and a current segment emptied under
a CLOSED lot has its step rows, steps and next read as they stand, where R102 says that they are not read (assumption log
18). -/
def Obligations.RowReportTakesTheRow : Prop :=
  (∀ (p : Port) (m : Loom) (row : BitVec 24) (knots : BitVec 256) (k : Slot) (l : Lot) (c : NetLot) (s : State),
    Listens p s → Steers p (loomSta m) s → HasLot s k l → (s.station (loomSta m)).lot = some l.number → l.build = .net c →
    (s.loom m).openRow = true → row.toNat = (s.loom m).row →
    let i := loomSta m
    let q := s.loom m
    let needles := s.settings.needles[m]
    let faulty := fun n : Nat =>
      (decide (q.first ≤ n) && decide (n ≤ q.last)) != (decide (n < needles) && knots.getMsbD n)
    let missed := (List.range 256).countP fun n => faulty n && decide (q.first ≤ n) && decide (n ≤ q.last)
    let stray := (List.range 256).countP fun n => faulty n && !(decide (q.first ≤ n) && decide (n ≤ q.last))
    let entries :=
      (((List.range 256).find? faulty).map fun n =>
        ({ panel := q.panel, row := q.row, missed := missed, stray := stray, needle := n } : KnotFault)).toList
    let draw := (q.last - q.first + 1) * (c.mesh + c.knot)
    let a := validArrival p s
    let compared := if missed + stray = 0 then a else raise .knot (.station i) (BitVec.ofNat 16 (missed + stray)) a
    let upper := charge i (.feed m .upper) ((draw + 1) / 2 * 1000) compared
    let lower := charge i (.feed m .lower) (draw / 2 * 1000) upper.1
    let g := s.segment q.segment
    let out := fun x : TaperStep => match x with | .inward => (-1 : Int) | .none => 0 | .outward => 1
    let wantFirst := (q.first : Int) - out g.left
    let wantLast := (q.last : Int) + out g.right
    let clamp := fun v : Int => if v < 0 then 0 else if (needles : Int) - 1 < v then (needles : Int) - 1 else v
    let newFirst := clamp wantFirst
    let newLast := clamp wantLast
    let range : Nat × Nat × Bool :=
      if q.rowIn % g.stepRows ≠ 0 then (q.first, q.last, false)
      else if newLast < newFirst then (q.first, q.last, true)
      else (newFirst.toNat, newLast.toNat, decide (newFirst ≠ wantFirst ∨ newLast ≠ wantLast))
    let u :=
      if range.2.2 && !q.clampNoted && !s.settings.disable.getLsbD 8 then
        raise .planClamp (.station i) (BitVec.ofNat 16 q.segment.val) lower.1
      else lower.1
    let pos : LoomPos :=
      { q with
        openRow := false, first := range.1, last := range.2.1, clampNoted := q.clampNoted || range.2.2
        shortfall := (q.shortfall.add upper.2).add lower.2, lastTaken := some q.row
        faults := if q.faults.length < 16 then q.faults ++ entries else q.faults
        overflow := q.overflow || decide (0 < missed + stray ∧ 16 ≤ q.faults.length) }
    let counted := { l with rows := min 4294967295 (l.rows + 1) }
    let r := u.station i
    let goes := r.state = .knotting ∧ r.causes = 0
    let answers := fun (payload : List Byte) (st : RunState) (b : Lot) (x : LoomPos) (v : State) =>
      Answers p 0x42 .ok payload (.rowReport p (staByte i) row knots) s
        (writeStation i { r with state := st } ((v.setLot k (some b)).setLoom m x))
    let onward : Option LoomPos :=
      if q.rowIn < g.rows then some { pos with rowIn := q.rowIn + 1, row := q.row + 1 }
      else match g.next with
        | some j =>
          if 0 < (s.segment j).rows then some { pos with segment := j, rowIn := 1, row := q.row + 1, clampNoted := false }
          else none
        | none => none
    (c.missed < missed + stray →
      answers [3, 0, 0, 0, 0, 0, 0, 0, 0] .rowHold counted
        (match onward with
          | some x => { x with lastAnswer := some (.hold, none) }
          | none => { pos with endPending := true, lastAnswer := some (.hold, none) }) u) ∧
    (missed + stray ≤ c.missed → ∀ x, onward = some x →
      let o : RowOrder := { panel := x.panel, row := x.row, first := x.first, last := x.last }
      (goes →
        answers ([1, 1] ++ bytesOf 2 o.panel ++ bytesOf 3 o.row ++ bytesOf 1 o.first ++ bytesOf 1 o.last) r.state counted
          { x with openRow := true, lastAnswer := some (.next, some o) } u) ∧
      (¬ goes →
        answers [2, 0, 0, 0, 0, 0, 0, 0, 0] r.state counted { x with lastAnswer := some (.stop, none) } u)) ∧
    (missed + stray ≤ c.missed → onward = none →
      let top := needles - 1
      let o : RowOrder := { panel := min 65535 (q.panel + 1), row := 1, first := min c.first top, last := min c.last top }
      let ended := raise .row (.station i) 0x600 u
      let done := { counted with done := l.done + 1 }
      let off := { pos with inPanel := false, endPending := false, lastAnswer := some (.panelEnd, none) }
      (l.done + 1 ≠ c.ordered ∨ (l.state ≠ .active ∧ l.state ≠ .held) →
        (goes → l.started < c.ordered → l.state ≠ .closed →
          answers ([4, 1] ++ bytesOf 2 o.panel ++ bytesOf 3 o.row ++ bytesOf 1 o.first ++ bytesOf 1 o.last) r.state
            { done with started := l.started + 1 }
            { off with
              inPanel := true, segment := c.head, rowIn := 1, row := 1, first := o.first, last := o.last
              clampNoted := false, panel := o.panel, openRow := true, lastAnswer := some (.panelEnd, some o) } ended) ∧
        (goes → c.ordered ≤ l.started ∨ l.state = .closed →
          answers [4, 0, 0, 0, 0, 0, 0, 0, 0] .standby done off ended) ∧
        (¬ goes → answers [4, 0, 0, 0, 0, 0, 0, 0, 0] r.state done off ended)) ∧
      (l.done + 1 = c.ordered → l.state = .active ∨ l.state = .held → l.stations.getLsbD i.val = true →
        Answers p 0x42 .ok [4, 0, 0, 0, 0, 0, 0, 0, 0] (.rowReport p (staByte i) row knots) s
          ((raiseOnAll l.stations .lotEnd
            (raise .lot (.lot l.number) 0x205 (ended.setLot k (some { done with state := .complete })))).setLoom m off)))) ∧
  ∀ (p : Port) (m : Loom) (row : BitVec 24) (knots : BitVec 256) (k : Slot) (l : Lot) (c : NetLot) (x y : Bobbin) (s : State),
    Listens p s → Steers p (loomSta m) s → HasLot s k l → (s.station (loomSta m)).lot = some l.number → l.build = .net c →
    (s.loom m).openRow = true → row.toNat = (s.loom m).row →
    s.bobbinAt (.feed m .upper) = some x → s.bobbinAt (.feed m .lower) = some y → x.state = .mounted → y.state = .mounted →
    BobbinsOk s →
    let i := loomSta m
    let r := s.station i
    let q := s.loom m
    let needles := s.settings.needles[m]
    let sensed := fun n : Nat => decide (n < needles) && knots.getMsbD n
    let expected := fun n : Nat => decide (q.first ≤ n) && decide (n ≤ q.last)
    let missed := (List.range 256).countP fun n => expected n && !sensed n
    let stray := (List.range 256).countP fun n => sensed n && !expected n
    let draw := (q.last - q.first + 1) * (c.mesh + c.knot)
    let g := s.segment q.segment
    let range := if q.rowIn % g.stepRows = 0 then taperRange q g needles else (q.first, q.last, false)
    missed + stray ≤ c.missed → q.shortfall.mm ≤ 4294967295 → q.shortfall.um < 1000 →
    s.settings.lowMark * 1000 ≤ x.wound.total - x.drawn.total - ((draw + 1) / 2) * 1000 →
    s.settings.lowMark * 1000 ≤ y.wound.total - y.drawn.total - (draw / 2) * 1000 →
    ((draw + 1) / 2) * 1000 < x.wound.total - x.drawn.total → (draw / 2) * 1000 < y.wound.total - y.drawn.total →
    r.state = .knotting → r.causes = 0 → q.rowIn < g.rows →
    ∃ u, Answers p 0x42 .ok
        ([1, 1] ++ bytesOf 2 q.panel ++ bytesOf 3 (q.row + 1) ++ bytesOf 1 range.1 ++ bytesOf 1 range.2.1)
        (.rowReport p (staByte i) row knots) s u ∧
      u = { s with
        ports := u.ports, queues := u.queues, looms := u.looms, bobbins := u.bobbins
        lots := s.lots.set k (some { l with rows := min 4294967295 (l.rows + 1) }) } ∧
      u.bobbins =
        withBobbin { y with drawn := ⟨(y.drawn.total + (draw / 2) * 1000) / 1000, y.drawn.total % 1000⟩ }
          (withBobbin
            { x with drawn := ⟨(x.drawn.total + ((draw + 1) / 2) * 1000) / 1000, x.drawn.total % 1000⟩ } s.bobbins) ∧
      u.looms = s.looms.set m
        { q with
          rowIn := q.rowIn + 1
          row := q.row + 1
          first := range.1
          last := range.2.1
          clampNoted := q.clampNoted || range.2.2
          lastTaken := some q.row
          lastAnswer := some (.next, some { panel := q.panel, row := q.row + 1, first := range.1, last := range.2.1 })
          faults := (u.loom m).faults
          overflow := (u.loom m).overflow } ∧
      (missed + stray = 0 → (u.loom m).faults = q.faults ∧ (u.loom m).overflow = q.overflow) ∧
      (0 < missed + stray → q.faults.length < 16 → (u.loom m).overflow = q.overflow ∧
        ∃ needle, (u.loom m).faults = q.faults ++
            [{ panel := q.panel, row := q.row, missed := missed, stray := stray, needle := needle }] ∧
          needle < 256 ∧ (expected needle != sensed needle) = true ∧
          ∀ n, n < needle → (expected n != sensed n) = false) ∧
      (0 < missed + stray → 16 ≤ q.faults.length → (u.loom m).faults = q.faults ∧ (u.loom m).overflow = true)

/-- Row reports that take no row (R113, R174): of a station that is no loom, of a loom without a lot, another number than
the open row's, a repeat of the last row taken, any other number; and a report that calls for a hold (R118) takes the loom
to ROW_HOLD with its next row not opened. -/
def Obligations.RowReportsOutOfTurn : Prop :=
  (∀ (p : Port) (i : Sta) (row : BitVec 24) (knots : BitVec 256) (s : State), Listens p s → Steers p i s →
    i ≠ loomSta 0 → i ≠ loomSta 1 → OnlyAnswers p 0x42 .outOfRange [] (.rowReport p (staByte i) row knots) s) ∧
  ∀ (p : Port) (m : Loom) (row : BitVec 24) (knots : BitVec 256) (s : State), Listens p s → Steers p (loomSta m) s →
    let b := staByte (loomSta m)
    let q := s.loom m
    let answer := fun (code : Code) (payload : List Byte) => OnlyAnswers p 0x42 code payload (.rowReport p b row knots) s
    let order := [1] ++ bytesOf 2 q.panel ++ bytesOf 3 q.row ++ bytesOf 1 q.first ++ bytesOf 1 q.last
    ((s.station (loomSta m)).lot = none → answer .wrongState []) ∧
    ∀ k l c, HasLot s k l → (s.station (loomSta m)).lot = some l.number → l.build = .net c →
      (q.openRow = true → row.toNat ≠ q.row → answer .outOfSequence ([0] ++ order)) ∧
      (q.openRow = false → q.lastTaken = none → answer .outOfSequence [0, 0, 0, 0, 0, 0, 0, 0, 0]) ∧
      (∀ n d o, q.openRow = false → q.lastTaken = some n → q.lastAnswer = some (d, o) →
        (row.toNat = n → answer .rowTaken (rowAnswerBytes d o)) ∧
        (row.toNat ≠ n → answer .outOfSequence [0, 0, 0, 0, 0, 0, 0, 0, 0])) ∧
      (q.openRow = true → row.toNat = q.row → c.missed < faultCount q knots s.settings.needles[m] →
        ∃ u, Answers p 0x42 .ok [3, 0, 0, 0, 0, 0, 0, 0, 0] (.rowReport p b row knots) s u ∧
          (u.station (loomSta m)).state = .rowHold ∧ (u.loom m).openRow = false ∧
          (u.loom m).lastTaken = some q.row ∧ (u.loom m).lastAnswer = some (.hold, none))

/-- ROW_REPLY in ROW_HOLD (R120, R121): ACCEPT opens the next row and goes on knotting where the cause set is empty, and
goes to HALTED with STOP where it is not; where the panel's end is pending it ends the panel done first (R110), and then a
next panel starts, or its start is refused and the loom goes to STANDBY, or the loom halts under the causes it has or, where
that panel completes the lot (R44), under LOT_END; ABANDON rejects the panel and withdraws its start. Out of ROW_HOLD both
are refused, and so is a station that is no loom. The order of the stations under LOT_END is the model's choice (assumption
log 7). -/
def Obligations.RowRepliesEndTheHold : Prop :=
  (∀ (p : Port) (i : Sta) (s : State), Listens p s → Steers p i s → i ≠ loomSta 0 → i ≠ loomSta 1 →
    OnlyAnswers p 0x43 .outOfRange [] (.rowReplyAccept p (staByte i)) s ∧
      OnlyAnswers p 0x43 .outOfRange [] (.rowReplyAbandon p (staByte i)) s) ∧
  ∀ (p : Port) (m : Loom) (s : State), Listens p s → Steers p (loomSta m) s →
    let i := loomSta m
    let r := s.station i
    let q := s.loom m
    let a := validArrival p s
    (r.state ≠ .rowHold →
      OnlyAnswers p 0x43 .wrongState [] (.rowReplyAccept p (staByte i)) s ∧
        OnlyAnswers p 0x43 .wrongState [] (.rowReplyAbandon p (staByte i)) s) ∧
    (r.state = .rowHold → q.endPending = false → r.causes = 0 →
      let o : RowOrder := { panel := q.panel, row := q.row, first := q.first, last := q.last }
      Answers p 0x43 .ok ([1, 1] ++ bytesOf 2 o.panel ++ bytesOf 3 o.row ++ bytesOf 1 o.first ++ bytesOf 1 o.last)
        (.rowReplyAccept p (staByte i)) s
        ((writeStation i { r with state := .knotting } a).setLoom m
          { q with openRow := true, lastAnswer := some (.next, some o) })) ∧
    (r.state = .rowHold → q.endPending = false → r.causes ≠ 0 →
      Answers p 0x43 .ok [2, 0, 0, 0, 0, 0, 0, 0, 0] (.rowReplyAccept p (staByte i)) s
        ((writeStation i { r with state := .halted } a).setLoom m { q with lastAnswer := some (.stop, none) })) ∧
    (∀ k l c, r.state = .rowHold → q.endPending = true → HasLot s k l → r.lot = some l.number → l.build = .net c →
      let ended := { q with inPanel := false, endPending := false }
      let off := { ended with lastAnswer := some (.panelEnd, none) }
      let done := raise .row (.station i) 0x600 (a.setLoom m ended)
      let counted := { l with done := l.done + 1 }
      let only := Answers p 0x43 .ok [4, 0, 0, 0, 0, 0, 0, 0, 0] (.rowReplyAccept p (staByte i)) s
      (l.done + 1 ≠ c.ordered ∨ (l.state ≠ .active ∧ l.state ≠ .held) →
        (r.causes ≠ 0 →
          only ((writeStation i { r with state := .halted } (done.setLot k (some counted))).setLoom m off)) ∧
        (r.causes = 0 → c.ordered ≤ l.started ∨ l.state = .closed →
          only ((writeStation i { r with state := .standby }
            (writeStation i { r with state := .knotting } (done.setLot k (some counted)))).setLoom m off)) ∧
        (r.causes = 0 → l.started < c.ordered → l.state ≠ .closed →
          let top := s.settings.needles[m] - 1
          let o : RowOrder :=
            { panel := min 65535 (q.panel + 1), row := 1, first := min c.first top, last := min c.last top }
          Answers p 0x43 .ok ([4, 1] ++ bytesOf 2 o.panel ++ bytesOf 3 o.row ++ bytesOf 1 o.first ++ bytesOf 1 o.last)
            (.rowReplyAccept p (staByte i)) s
            ((writeStation i { r with state := .knotting }
              (done.setLot k (some { counted with started := l.started + 1 }))).setLoom m
              { q with
                inPanel := true, endPending := false, segment := c.head, rowIn := 1, row := 1, first := o.first
                last := o.last, clampNoted := false, panel := o.panel, openRow := true
                lastAnswer := some (.panelEnd, some o) }))) ∧
      (l.done + 1 = c.ordered → l.state = .active ∨ l.state = .held → l.stations.getLsbD i.val = true →
        only ((writeStation i { r with state := .halted, causes := r.causes ||| 0x100 }
          (raiseOnAll l.stations .lotEnd
            (raise .lot (.lot l.number) 0x205 (done.setLot k (some { counted with state := .complete }))))).setLoom m
          off))) ∧
    ∀ k l, r.state = .rowHold → HasLot s k l → r.lot = some l.number →
      Answers p 0x43 .ok [2, 0, 0, 0, 0, 0, 0, 0, 0] (.rowReplyAbandon p (staByte i)) s
        ((writeStation i { r with state := if r.causes = 0 then .standby else .halted }
          (raise .row (.station i) 0x601
            (a.setLot k (some { l with started := l.started - 1, rejected := min 255 (l.rejected + 1) })))).setLoom m
          { q with inPanel := false, endPending := false, lastAnswer := some (.stop, none) })

/-- KNOT_FAULT_READ and NOTICE_READ take the oldest entries of the loom's list and of the asking port's queue, 1 to 4, and
answer with them (R122, R183); another count is refused. The bytes of a knot fault entry follow R177 as assumption log 9
reads it. -/
def Obligations.ReadsThatRemove : Prop :=
  ∀ (p : Port) (count : Byte) (s : State), Listens p s →
    let a := validArrival p s
    (count.toNat < 1 ∨ 4 < count.toNat →
      OnlyAnswers p 0x60 .outOfRange [] (.noticeRead p count) s ∧
        ∀ b : Byte, OnlyAnswers p 0x44 .outOfRange [] (.knotFaultRead p b count) s) ∧
    (∀ b : Byte, b ≠ 5 → b ≠ 6 → OnlyAnswers p 0x44 .outOfRange [] (.knotFaultRead p b count) s) ∧
    (1 ≤ count.toNat → count.toNat ≤ 4 →
      Answers p 0x60 .ok
        (BitVec.ofNat 8 (min count.toNat (a.queue p).length) :: ((a.queue p).take count.toNat).flatMap Entry.bytes)
        (.noticeRead p count) s (a.setQueue p ((a.queue p).drop count.toNat)) ∧
      ∀ m, Answers p 0x44 .ok
        (BitVec.ofNat 8 (min count.toNat (s.loom m).faults.length) ::
            ((s.loom m).faults.take count.toNat).flatMap KnotFault.bytes ++ [if (s.loom m).overflow then 1 else 0])
        (.knotFaultRead p (staByte (loomSta m)) count) s
        (a.setLoom m { s.loom m with faults := (s.loom m).faults.drop count.toNat, overflow := false }))

/-! ## Coiling -/

/-- CUT_DONE of the arbor that is CUTTING with CUT asserted (R147, R148, R140, R44): the coil's length, overrun and cut
time are fixed and it is PACKING with the head tag or a pending one; the lot counts it; CUT_STOP and ARBOR_BUSY leave C0;
and the next coil starts on the other arbor, or no coil starts and the LOT_END of a completed or CLOSED lot (R42, R154)
stands on C0. Refused for a station other than
K0, for a byte that names no arbor, without a lot on K0, for an arbor that is not CUTTING, and while CUT is not asserted
because the other arbor is not FREE (R144, R146). -/
def Obligations.CutDonePacksAndStarts : Prop :=
  (∀ (p : Port) (s : State), Listens p s →
    (∀ (i : Sta) (b : Byte), Steers p i s → i ≠ staK0 ∨ (b ≠ 0 ∧ b ≠ 1) →
      OnlyAnswers p 0x58 .outOfRange [] (.cutDone p (staByte i) b) s) ∧
    (Steers p staK0 s → ∀ id : ArborId,
      let cmd := Instr.cutDone p (staByte staK0) (BitVec.ofNat 8 id.code)
      ((s.station staK0).lot = none → OnlyAnswers p 0x58 .wrongState [] cmd s) ∧
      ((∀ c, s.arbor id ≠ .busy .cutting c) → OnlyAnswers p 0x58 .wrongState [] cmd s) ∧
      (cutLine s = false → OnlyAnswers p 0x58 .wrongState [] cmd s) ∧
      (∀ c, s.arbor id = .busy .cutting c → (cutLine s = true ↔ s.arbor id.other = .free)))) ∧
  ∀ (p : Port) (id : ArborId) (c : Coil) (k : Slot) (l : Lot) (r : RopeLot) (s : State),
    Listens p s → Steers p staK0 s → (s.station staK0).lot ≠ none → s.arbor id = .busy .cutting c →
    s.arbor id.other = .free → HasLot s k l → c.lot = l.number → l.build = .rope r → s.rope = some r →
    let tag := match s.coiler.tags with | t :: _ => some t | [] => c.tag
    let clock := BitVec.ofNat 32 s.nowMs
    let packed : Coil :=
      { c with
        length := ⟨c.length.mm, 0⟩
        overrun := if c.remnant then 0 else c.length.mm - r.coilLen * 1000
        cut := some clock
        tag := tag }
    let counted := { l with produced := min 4294967295 (l.produced + c.length.mm), done := l.done + 1 }
    let c0 := s.station staC0
    ∃ u, Answers p 0x58 .ok [] (.cutDone p (staByte staK0) (BitVec.ofNat 8 id.code)) s u ∧
      u = { s with
        stations := u.stations, twists := u.twists, lots := u.lots, coiler := u.coiler, meter := u.meter
        ports := u.ports, queues := u.queues } ∧
      u.arbor id = .busy .packing packed ∧ u.coiler.tags = s.coiler.tags.tail ∧
      u.coiler.outbound = s.coiler.outbound ∧
      (l.started < r.ordered → l.state ≠ .closed → l.done + 1 ≠ r.ordered →
        u.arbor id.other = .busy .winding ((s.seedIds r).foldl Coil.addBobbin
          { tag := none, lot := l.number, seq := l.started + 1, length := ⟨0, 0⟩, overrun := 0
            source := if s.meter.stall then .capstan else .wheel
            slip := none, slipFlag := false, minF := none, maxF := none, drift := 0, shortfall := ⟨0, 0⟩, bobbins := []
            overflow := false, remnant := false, start := clock, cut := none }) ∧
        u.meter = { s.meter with slipOpen := !s.meter.stall, winCap := 0, winWheel := 0 } ∧
        u.lots = s.lots.set k (some { counted with started := l.started + 1 }) ∧
        u.station staC0 = emptied staC0 (c0.causes &&& 0x9FF) c0 ∧ (∀ i, i ≠ staC0 → u.station i = s.station i)) ∧
      (l.started = r.ordered → l.done + 1 = r.ordered → l.state = .active ∨ l.state = .held →
        u.arbor id.other = .free ∧ u.meter = { s.meter with slipOpen := false, winCap := 0, winWheel := 0 } ∧
        u.lots = s.lots.set k (some { counted with state := .complete }) ∧
        hasCause (u.station staC0).causes .lotEnd = true ∧ hasCause (u.station staC0).causes .cutStop = false ∧
        hasCause (u.station staC0).causes .arborBusy = false) ∧
      (l.state = .closed →
        u.arbor id.other = .free ∧ u.meter = { s.meter with slipOpen := false, winCap := 0, winWheel := 0 } ∧
        u.lots = s.lots.set k (some counted) ∧ (u.station staC0).causes = c0.causes &&& 0x9FF ||| 0x100 ∧
        (c0.state = .halted ∨ c0.state = .runDown → (u.station staC0).state = c0.state) ∧
        ∀ i, i ≠ staC0 → u.station i = s.station i)

/-- PACK_DONE and COIL_TAKE (R144, R146, R149, R152, R153): a tagged coil is posted with its notices and frees its arbor,
which takes ARBOR_BUSY from C0 where the other arbor is CUTTING, or waits in POSTING for room; a take hands over the
oldest record and posts the coil that waited. -/
def Obligations.PackAndTakePostCoils : Prop :=
  ∀ (p : Port) (s : State), Listens p s →
    let a := validArrival p s
    let c0 := s.station staC0
    let post := fun (id : ArborId) (w : Coil) (list : List Coil) =>
      let k := { s.coiler with outbound := list ++ [w] }.setArbor id .free
      let u := raise .coilPosted (.lot w.lot) (BitVec.ofNat 16 w.seq) { a with coiler := k }
      let v :=
        if s.settings.listHigh ≤ list.length + 1 ∧ s.settings.disable.getLsbD 10 = false then
          raise .list (.station staK0) (BitVec.ofNat 16 (list.length + 1)) u
        else u
      if (s.arbor id.other).isCutting = true ∧ hasCause c0.causes .arborBusy = true then
        writeStation staC0 (emptied staC0 (c0.causes &&& 0xBFF) c0) v
      else v
    (∀ (i : Sta) (b : Byte), Steers p i s → i ≠ staK0 ∨ (b ≠ 0 ∧ b ≠ 1) →
      OnlyAnswers p 0x58 .outOfRange [] (.packDone p (staByte i) b) s) ∧
    (Steers p staK0 s → (s.station staK0).lot = none → ∀ id : ArborId,
      OnlyAnswers p 0x58 .wrongState [] (.packDone p (staByte staK0) (BitVec.ofNat 8 id.code)) s) ∧
    (Steers p staK0 s → (s.station staK0).lot ≠ none → ∀ id,
      let cmd := Instr.packDone p (staByte staK0) (BitVec.ofNat 8 id.code)
      ((∀ c, s.arbor id ≠ .busy .packing c) → OnlyAnswers p 0x58 .wrongState [] cmd s) ∧
      ∀ c, s.arbor id = .busy .packing c →
        (c.tag = none → OnlyAnswers p 0x58 .tagPending [] cmd s) ∧
        (c.tag ≠ none → s.coiler.outbound.length < 12 → Answers p 0x58 .ok [] cmd s (post id c s.coiler.outbound)) ∧
        (c.tag ≠ none → 12 ≤ s.coiler.outbound.length →
          Answers p 0x58 .ok [] cmd s
            (raise .coilWait (.station staK0) 0x603 (a.setArbor id (.busy .posting c))))) ∧
    (s.coiler.outbound = [] → OnlyAnswers p 0x5A .listEmpty [] (.coilTake p) s) ∧
    ∀ c rest, s.coiler.outbound = c :: rest →
      ((∀ id w, s.arbor id ≠ .busy .posting w) →
        Answers p 0x5A .ok c.bytes (.coilTake p) s { a with coiler := { s.coiler with outbound := rest } }) ∧
      ∀ id w, s.arbor id = .busy .posting w → (∀ v, s.arbor id.other ≠ .busy .posting v) →
        Answers p 0x5A .ok c.bytes (.coilTake p) s (post id w rest)

/-- TAG_LOAD (R150, R151): refused whole for a count outside 1 to 8, a tag 0, a tag twice or already in the unit, or a
list that would pass 32; otherwise the tags join the list, and a coil with its tag pending takes the head, with the low
mark check. -/
def Obligations.TagsLoadWhole : Prop :=
  ∀ (p : Port) (count : Byte) (tags : Vector (BitVec 24) 8) (s : State), Listens p s →
    let n := count.toNat
    let new := (tags.toList.take n).map BitVec.toNat
    let cmd := Instr.tagLoad p count tags
    let taken := tagsOf s.coiler
    (n = 0 ∨ 8 < n ∨ 0 ∈ new → OnlyAnswers p 0x59 .outOfRange [] cmd s) ∧
    (1 ≤ n → n ≤ 8 → 0 ∉ new →
      (¬ new.Nodup ∨ (∃ t ∈ new, t ∈ taken) → OnlyAnswers p 0x59 .duplicate [] cmd s) ∧
      (new.Nodup → (∀ t ∈ new, t ∉ taken) →
        (32 < s.coiler.tags.length + n → OnlyAnswers p 0x59 .tableFull [] cmd s) ∧
        (s.coiler.tags.length + n ≤ 32 →
          let k := { s.coiler with tags := s.coiler.tags ++ new }
          let a := validArrival p s
          ((∀ id c, s.arbor id = .busy .packing c → c.tag ≠ none) →
            Answers p 0x59 .ok [] cmd s { a with coiler := k }) ∧
          ∀ id c head rest, s.arbor id = .busy .packing c → c.tag = none →
            (∀ d, s.arbor id.other = .busy .packing d → d.tag ≠ none) → s.coiler.tags ++ new = head :: rest →
            let u := { a with coiler := { s.coiler with tags := rest }.setArbor id (.busy .packing { c with tag := some head }) }
            Answers p 0x59 .ok [] cmd s
              (if rest.length < s.settings.tagsLow ∧ s.settings.disable.getLsbD 9 = false then
                raise .tags (.station staK0) (BitVec.ofNat 16 rest.length) u
              else u))))

/-! ## Settings, links and supply -/

/-- ROUTE_WRITE and ATTN_ENABLE (R181, R184) set one class's port set and the asking port's attention enable, and refuse
what is out of range. STORE_COMMIT and its completion (R189, R191): BUSY while one is in flight; a snapshot taken with the
store invalid; at the completion the store holds the snapshot and the STORED notice tells the sender, or P0 of the rewrite
after a warm start. -/
def Obligations.RoutingAttentionCommit : Prop :=
  (∀ (p : Port) (s : State), Listens p s →
    let a := validArrival p s
    (∀ (c : Fin 19) (set : Byte), set.toNat < 16 →
      Answers p 0x61 .ok [] (.routeWrite p (BitVec.ofNat 8 (c.val + 1)) set) s
        (a.setSettings { s.settings with routing := s.settings.routing.set c (BitVec.ofNat 4 set.toNat) })) ∧
    (∀ cls set : Byte, cls = 0 ∨ 19 < cls.toNat ∨ 15 < set.toNat →
      OnlyAnswers p 0x61 .outOfRange [] (.routeWrite p cls set) s) ∧
    Answers p 0x63 .ok [] (.attnEnable p 1) s
      (a.setSettings { s.settings with attn := s.settings.attn ||| BitVec.twoPow 4 p.val }) ∧
    Answers p 0x63 .ok [] (.attnEnable p 0) s
      (a.setSettings { s.settings with attn := s.settings.attn &&& ~~~(BitVec.twoPow 4 p.val) }) ∧
    (∀ v : Byte, 1 < v.toNat → OnlyAnswers p 0x63 .outOfRange [] (.attnEnable p v) s) ∧
    (s.commit ≠ none → OnlyAnswers p 0x74 .busy [] (.storeCommit p) s) ∧
    (s.commit = none →
      Answers p 0x74 .ok [] (.storeCommit p) s
        { a with
          store := { valid := false, copy := s.store.copy }
          commit := some { snapshot := s.settings, sender := some p } })) ∧
  ∀ s : State, s.power = .running →
    (s.commit = none → exec .storeCommitCompletion s = .next s) ∧
    ∀ x, s.commit = some x →
      let u := { s with store := { valid := true, copy := x.snapshot }, commit := none }
      (∀ q, x.sender = some q → exec .storeCommitCompletion s = .next (raise .stored (.port q) 0x700 u)) ∧
      (x.sender = none → exec .storeCommitCompletion s = .next (raise .stored (.port 0) 0x701 u))

/-- SETTINGS_WRITE and CAL_WRITE (R18, R106, R187, R188): all pairs in order or none; each stores its setting or item at
its code, or its number clamped to its range (R17, R186), and refuses the request for another number or code; refused for
the needle count of a loom with a lot, and for calibration of what is moving. A written limit or silence period that is
already passed acts on its window, phase or port at once (R52, R73, R74, R171): the window stalls with its LAY_WARN notice,
the phase is marked with its PHASE_WARN notice, unless the warning is disabled (R75), and the port falls silent with its LINK
notice and, where halt-enabled, LINK_SILENT on its stations (R169). One that is not passed has no further effect; a channel
loses its pending change where its edge mode or filter changed. The order of the effects of one request is the model's
choice (assumption log 7); the limits on further effects are read from the spec (assumption log 11). -/
def Obligations.SettingsAreWrittenWhole : Prop :=
  (∀ (f : Settings → Nat → Nat → Option (Settings × Bool)) (c : Settings) (clamped : Bool) (pair : Byte × BitVec 32)
      (rest : List (Byte × BitVec 32)),
    writePairs f [] c clamped = some (c, clamped) ∧
      writePairs f (pair :: rest) c clamped =
        match f c pair.1.toNat pair.2.toNat with
        | some (c', now) => writePairs f rest c' (clamped || now)
        | none => none) ∧
  (∀ (c : Settings) (v : Nat),
    let num := fun (lo hi : Nat) (f : Nat → Settings) =>
      some (f (max lo (min hi v)), decide (max lo (min hi v) ≠ v))
    let coded := fun (codes : List Settings) => (codes[v]?).map fun x => (x, false)
    let w := fun no => Settings.write c no v
    let cal := fun code => Settings.writeCal c code v
    w 1 = coded ([.off, .s2, .s10, .s30].map fun x => { c with retryWait := x }) ∧
    w 2 = num 1 60 (fun x => { c with windowLimit := x }) ∧
    w 3 = coded ([.ms20, .ms80, .ms320, .ms1280].map fun x => { c with scale := x }) ∧
    w 4 = num 1 240 (fun x => { c with runUpLimit := x }) ∧ w 5 = num 1 240 (fun x => { c with runDownLimit := x }) ∧
    w 6 = (if v < 2048 then some ({ c with disable := BitVec.ofNat 11 v }, false) else none) ∧
    w 7 = (if v < 8 then some ({ c with haltEnable := BitVec.ofNat 3 v }, false) else none) ∧
    w 8 = num 0 1000000 (fun x => { c with lowMark := x }) ∧
    (∀ l : Loom, w (9 + l.val) = num 16 256 (fun x => { c with needles := c.needles.set l x })) ∧
    w 11 = num 0 32 (fun x => { c with tagsLow := x }) ∧ w 12 = num 1 12 (fun x => { c with listHigh := x }) ∧
    (∀ q : Port, w (13 + q.val) =
      coded ([.off, .ms200, .ms500, .ms1000, .ms2000].map fun x => { c with silence := c.silence.set q x })) ∧
    (∀ no, no = 0 ∨ 16 < no → w no = none) ∧
    (∀ k : Chan,
      cal k.val = coded ([.off, .rise, .fall, .both].map fun x => { c with edge := c.edge.set k x }) ∧
      cal (16 + k.val) = coded ([.off, .us20, .us100, .us500].map fun x => { c with filter := c.filter.set k x })) ∧
    (∀ t : Twi,
      cal (32 + t.val) = num 1 65535 (fun x => { c with capstan := c.capstan.set t x }) ∧
      cal (40 + t.val) = num 1 255 (fun x => { c with flyer := c.flyer.set t x })) ∧
    cal 48 = num 1 65535 (fun x => { c with wheel := x }) ∧
    ∀ no, 10 < no ∧ no < 16 ∨ 26 < no ∧ no < 32 ∨ 36 < no ∧ no < 40 ∨ 44 < no ∧ no < 48 ∨ 48 < no → cal no = none) ∧
  (∀ (s : State) (code : Byte) (v : BitVec 32),
    calMoving s (code, v) = true ↔
      (∃ t : Twi,
        ((s.station (twiSta t)).state = .runUp ∨ (s.station (twiSta t)).state = .steady ∨
          (s.station (twiSta t)).state = .runDown) ∧
        code.toNat ∈ [2 * t.val, 2 * t.val + 1, 16 + 2 * t.val, 17 + 2 * t.val, 32 + t.val, 40 + t.val]) ∨
      (code = 0x0A ∨ code = 0x1A ∨ code = 0x30) ∧ ∃ id c, s.arbor id = .busy .winding c ∨ s.arbor id = .busy .slowing c) ∧
  ∀ (p : Port) (pairs : List (Byte × BitVec 32)) (s : State), Listens p s → 1 ≤ pairs.length → pairs.length ≤ 12 →
    let a := validArrival p s
    let wrote := fun n : Nat => pairs.any fun x => x.1.toNat == n
    (writePairs Settings.write pairs s.settings false = none →
      OnlyAnswers p 0x70 .outOfRange [] (.settingsWrite p pairs) s) ∧
    (∀ c clamped, writePairs Settings.write pairs s.settings false = some (c, clamped) →
      ((∃ x ∈ pairs, (x.1 = 9 ∧ (s.station (loomSta 0)).lot ≠ none) ∨ (x.1 = 10 ∧ (s.station (loomSta 1)).lot ≠ none)) →
        OnlyAnswers p 0x70 .wrongState [] (.settingsWrite p pairs) s) ∧
      ((∀ x ∈ pairs, (x.1 = 9 → (s.station (loomSta 0)).lot = none) ∧ (x.1 = 10 → (s.station (loomSta 1)).lot = none)) →
        let stalled := fun t : Twi =>
          wrote 2 && (s.twist t).lay.isOpen && decide ((s.station (twiSta t)).state = .steady ∧
            (s.twist t).lay.openMs + c.windowLimit * 1000 ≤ s.nowMs)
        let upLong := fun t : Twi =>
          wrote 4 && !(s.twist t).runUpLong && decide ((s.station (twiSta t)).state = .runUp ∧
            c.runUpLimit ≤ (s.twist t).runUp.reading s.nowMs)
        let downLong := fun t : Twi =>
          wrote 5 && !(s.twist t).runDownLong && decide ((s.station (twiSta t)).state = .runDown ∧
            c.runDownLimit ≤ (s.twist t).runDown.reading s.nowMs)
        let fell := fun q : Port =>
          wrote (13 + q.val) && (a.port q).live &&
            match c.silence[q] with
            | .off => false
            | .ms200 => decide (200 ≤ (s.nowMs - (a.port q).lastValidMs) % 4294967296)
            | .ms500 => decide (500 ≤ (s.nowMs - (a.port q).lastValidMs) % 4294967296)
            | .ms1000 => decide (1000 ≤ (s.nowMs - (a.port q).lastValidMs) % 4294967296)
            | .ms2000 => decide (2000 ≤ (s.nowMs - (a.port q).lastValidMs) % 4294967296)
        let twists : List Twi := [0, 1, 2, 3, 4]
        let warned := fun (bit : Nat) (cls : NoticeClass) (word : BitVec 16) (t : Twi) (v : State) =>
          if c.disable.getLsbD bit then v else raise cls (.station (twiSta t)) word v
        let windowsExpired := fun v : State => (twists.filter stalled).foldl (fun v t =>
          warned 3 .layWarn 0x502 t (v.setTwist t
            { v.twist t with lay := { (v.twist t).lay with p := 0, dl := 0, openMs := s.nowMs } })) v
        let runUpsMarked := fun v : State => (twists.filter upLong).foldl (fun v t =>
          warned 0 .phaseWarn 0x500 t (v.setTwist t { v.twist t with runUpLong := true })) v
        let runDownsMarked := fun v : State => (twists.filter downLong).foldl (fun v t =>
          warned 1 .phaseWarn 0x501 t (v.setTwist t { v.twist t with runDownLong := true })) v
        let silenced := fun v : State => (([0, 1, 2, 3] : List Port).filter fell).foldl (fun v q =>
          (([0, 1, 2, 3, 4, 5, 6, 7] : List Sta).filter fun i =>
            c.haltEnable.getLsbD 2 && decide (Steers q i s)).foldl (fun v i => raiseCause i .linkSilent v)
              (raise .link (.port q) 0x604 (v.setPort q { v.port q with live := false }))) v
        let kept := fun i : Sta =>
          c.haltEnable.getLsbD 2 = false ∨
            ∀ q, fell q = true → ¬ Steers q i s ∧ (i = staC0 → ¬ Steers q staK0 s)
        ∃ u, Answers p 0x70 (if clamped then .clamped else .ok) [] (.settingsWrite p pairs) s u ∧
          u = { s with
            settings := c, stations := u.stations, twists := u.twists, ports := u.ports, queues := u.queues } ∧
          u = silenced (runDownsMarked (runUpsMarked (windowsExpired (a.setSettings c)))) ∧
          (∀ q, (u.port q).live = true ↔ (a.port q).live = true ∧ fell q = false) ∧
          (∀ i q, fell q = true → Steers q i s → c.haltEnable.getLsbD 2 = true →
            hasCause (u.station i).causes .linkSilent = true) ∧
          (∀ i, kept i → u.station i = s.station i) ∧
          (∀ t : Twi, kept (twiSta t) →
            let w := s.twist t
            (u.twist t).runUp = w.runUp ∧ (u.twist t).runDown = w.runDown ∧ (u.twist t).acc = w.acc ∧
            (u.twist t).lay = (if stalled t then { w.lay with p := 0, dl := 0, openMs := s.nowMs } else w.lay) ∧
            (u.twist t).runUpLong = (w.runUpLong || upLong t) ∧ (u.twist t).runDownLong = (w.runDownLong || downLong t)) ∧
          ((∀ t, stalled t = false ∧ upLong t = false ∧ downLong t = false) → (∀ q, fell q = false) → u = a.setSettings c))) ∧
    (writePairs Settings.writeCal pairs s.settings false = none →
      OnlyAnswers p 0x72 .outOfRange [] (.calWrite p pairs) s) ∧
    ∀ c clamped, writePairs Settings.writeCal pairs s.settings false = some (c, clamped) →
      ((∃ x ∈ pairs, calMoving s x = true) → OnlyAnswers p 0x72 .wrongState [] (.calWrite p pairs) s) ∧
      ((∀ x ∈ pairs, calMoving s x = false) →
        Answers p 0x72 (if clamped then .clamped else .ok) [] (.calWrite p pairs) s
          { a with
            settings := c
            channels := .ofFn fun k =>
              if s.settings.edge[k] ≠ c.edge[k] ∨ s.settings.filter[k] ≠ c.filter[k] then
                { s.channel k with pending := none }
              else s.channel k })

/-- The silence of a port (R169, R170): the expiry of a LIVE port's period makes it SILENT with its LINK notice and, where
LINK_SILENT is halt-enabled, raises LINK_SILENT on its stations and on no other; a valid frame makes it LIVE again with a
LINK notice; a SILENT port or a period OFF never expires. The time elapsed since the last valid frame is a difference of
works clock readings, modulo 2^32 ms (00_scope.md, Time). The clock after an expiry is the model's choice (assumption log
6). -/
def Obligations.SilenceBeginsAndEnds : Prop :=
  ∀ (p : Port) (s : State),
    let u := s.port p
    let period : Option Nat :=
      match s.settings.silence[p] with
      | .off => none | .ms200 => some 200 | .ms500 => some 500 | .ms1000 => some 1000 | .ms2000 => some 2000
    (s.power = .running → u.live = false ∨ period = none → exec (.silenceExpiry p) s = .next s) ∧
    (∀ ms, s.power = .running → u.live = true → period = some ms →
      let fallen := raise .link (.port p) 0x604
        ({ s with now := max s.now ((s.nowMs + (ms - (s.nowMs - u.lastValidMs) % 4294967296)) * 1000) }.setPort p
          { u with live := false })
      (s.settings.haltEnable.getLsbD 2 = false → exec (.silenceExpiry p) s = .next fallen) ∧
      (s.settings.haltEnable.getLsbD 2 = true →
        ∃ t, exec (.silenceExpiry p) s = .next t ∧
          t = { fallen with stations := t.stations, twists := t.twists, ports := t.ports, queues := t.queues } ∧
          (t.port p).live = false ∧ (∀ i, Steers p i s → hasCause (t.station i).causes .linkSilent = true) ∧
          ∀ i, ¬ Steers p i s → i ≠ staC0 → t.station i = s.station i)) ∧
    (u.live = true → validArrival p s = s.setPort p { u with lastValidMs := s.nowMs }) ∧
    (u.live = false →
      validArrival p s = raise .link (.port p) 0x605 (s.setPort p { u with live := true, lastValidMs := s.nowMs }))

/-- SUPPLY_LOW (R8, R78, R173, R190) in a state whose station records are in order: every station with a lot is stopped
with POWER, HALTED or still in ROW_HOLD; the fill of each strander under BOBBIN_FULL with its WINDING bobbin ends, is counted
and may complete its lot (R44); the ports are cut off, a commit is lost, the slip window and the mark pulse end, and the
image takes the state as it then stands. What stays until the next start is read from the spec (assumption log
14). -/
def Obligations.SupplyLowSavesAStoppedPart : Prop :=
  ∀ s : State, StationsOk s →
    (s.power = .running →
      ∃ t, exec .supplyLow s = .next t ∧
        t = { s with
          power := .saving, supplyGood := false, commit := none, imageValid := false, image := t.image
          stations := t.stations, twists := t.twists, ports := t.ports, queues := t.queues, lots := t.lots
          bobbins := t.bobbins
          meter := { s.meter with slipOpen := false, winCap := 0, winWheel := 0 }
          coiler := { s.coiler with markMs := none } } ∧
        t.image = t.toImage ∧
        (∀ i, (s.station i).lot ≠ none → hasCause (t.station i).causes .power = true ∧
          ((t.station i).state = .halted ∨ (s.station i).state = .rowHold ∧ (t.station i).state = .rowHold)) ∧
        (∀ q, (t.port q).asm = .hunt ∧ (t.port q).held = none ∧ (t.port q).answer = none) ∧
        (BobbinsOk s → FillsEnd s t) ∧
        ((∀ j : Strander, hasCause (s.station (strSta j)).causes .bobbinFull = false) →
          t.lots = s.lots ∧ t.bobbins = s.bobbins ∧ ∀ i, (s.station i).lot = none → t.station i = s.station i)) ∧
    (s.power = .saving ∨ s.power = .saved → exec .supplyLow s = .next { s with supplyGood := false }) ∧
    (s.power = .off → exec .supplyLow s = .next s)

/-- The starts (R14, R22, R46, R62, R80, R101, R125, R137, R157, R158, R185, R191): a completed save with the supply good,
a recovery after the save, and a power-up with a valid image make a warm start from the image; a power-up without one
makes a cold start with the settings of a valid store or the defaults. A RESET assertion across a start, the raw levels, and
after a start the open time of a window and the arrival of a port's last byte are the model's choices (assumption log 2, 10,
14). -/
def Obligations.StartsRestoreOrClear : Prop :=
  ∀ s : State,
    let unit : PortUnit :=
      { asm := .hunt, byteUs := 0, answer := none, held := none, live := true, lastValidMs := 0, frameErr := false
        noticeOvf := false }
    let pin : ResetPin := if s.resetPin = .released then .released else .spent
    let channels : Vector Channel 11 :=
      .ofFn fun c => { raw := (s.channel c).raw, level := (s.channel c).raw, pending := none }
    let warm : State :=
      { State.reset with
        pending := s.pending, choices := s.choices, resetPin := pin, channels := channels
        stations := s.image.stations
        twists := .ofFn fun t => .fresh s.image.accs[t]
        ports := .replicate 4 unit
        queues := .ofFn fun q =>
          [{ cls := .restart, subject := .port q, detail := 0x702, repeats := 1, first := 0 }]
        lots := s.image.lots, segments := s.image.segments, bobbins := s.image.bobbins, residues := s.image.residues
        closerShort := s.image.closerShort, looms := s.image.looms, coiler := s.image.coiler
        settings := s.image.settings, store := s.store
        commit := if s.store.valid then none else some { snapshot := s.image.settings, sender := none }
        imageValid := false, image := s.image }
    let cold : State :=
      { State.reset with
        pending := s.pending, choices := s.choices, resetPin := pin, channels := channels
        settings := if s.store.valid then s.store.copy else .default
        store := s.store, imageValid := s.imageValid, image := s.image }
    (s.power = .saving → s.supplyGood = true → exec .saveComplete s = .next warm) ∧
    (s.power = .saving → s.supplyGood = false →
      exec .saveComplete s = .next { s with imageValid := true, power := .saved }) ∧
    (s.power ≠ .saving → exec .saveComplete s = .next s) ∧
    (s.power = .saved → exec .supplyRecovery s = .next warm) ∧
    (s.power = .saving ∨ s.power = .running → exec .supplyRecovery s = .next { s with supplyGood := true }) ∧
    (s.power = .off → exec .supplyRecovery s = .next s) ∧
    (s.power = .off → s.imageValid = true → exec .powerUp s = .next warm) ∧
    (s.power = .off → s.imageValid = false → exec .powerUp s = .next cold) ∧
    (s.power ≠ .off → exec .powerUp s = .next s) ∧ exec .powerFailure s = .next { s with power := .off }

/-- The RESET input and the line reset (R9, R14, R22, R62, R80, R158, R178, R185, R192), in a state whose station records
are in order: an assertion held for 1 ms while the part runs stops every station that holds a lot with RESET, clears
bindings, ports, timers, windows and queues, and keeps settings, store, commit and image; any other assertion causes
nothing. The fill of each strander under BOBBIN_FULL with its WINDING bobbin ends (R78); that it is counted then and may
complete its lot is read from the spec (assumption log 16). The clock after the millisecond, an assertion that does not run,
and after the reset the open time of a window and the arrival of a port's last byte are the model's choices (assumption log
2, 6, 10). -/
def Obligations.ResetStopsAndKeeps : Prop :=
  ∀ s : State,
    (s.resetPin = .released → s.power = .running → exec .resetAssert s = .next { s with resetPin := .held s.now }) ∧
    (s.resetPin = .released → s.power ≠ .running → exec .resetAssert s = .next { s with resetPin := .spent }) ∧
    (s.resetPin ≠ .released → exec .resetAssert s = .next s) ∧
    exec .resetRelease s = .next { s with resetPin := .released } ∧
    (s.resetPin = .released ∨ s.resetPin = .spent → exec .lineReset s = .next s) ∧
    ∀ since, s.resetPin = .held since → s.power = .running → StationsOk s →
      let now := max s.now (since + 1000)
      ∃ t, exec .lineReset s = .next t ∧
        t = { s with
          now := now, resetPin := .spent, lots := t.lots, bobbins := t.bobbins, stations := t.stations
          twists := .ofFn fun k => .fresh (s.twist k).acc
          channels := .ofFn fun c => { s.channel c with pending := none }
          ports := .replicate 4
            { asm := .hunt, byteUs := 0, answer := none, held := none, live := true, lastValidMs := now / 1000
              frameErr := false, noticeOvf := false }
          queues := .ofFn fun q =>
            [{ cls := .restart, subject := .port q, detail := 0x703, repeats := 1, first := BitVec.ofNat 32 (now / 1000) }]
          meter := { stall := false, stallDist := 0, slipOpen := false, winCap := 0, winWheel := 0, lastSlip := none }
          coiler := { s.coiler with markMs := none } } ∧
        (∀ i, (t.station i).bound = none ∧ (t.station i).retryUntilMs = none ∧ (t.station i).lot = (s.station i).lot) ∧
        (∀ i, (s.station i).lot ≠ none → hasCause (t.station i).causes .reset = true ∧
          ((t.station i).state = .halted ∨ (s.station i).state = .rowHold ∧ (t.station i).state = .rowHold)) ∧
        (BobbinsOk s → FillsEnd s t) ∧
        ((∀ j : Strander, hasCause (s.station (strSta j)).causes .bobbinFull = false) →
          t.lots = s.lots ∧ t.bobbins = s.bobbins ∧
            ∀ i, (s.station i).lot = none → t.station i = { s.station i with bound := none, retryUntilMs := none })

/-! ## Invariants that every step keeps -/

/-- Every step keeps the notice queues in order (R182). -/
def Obligations.StepKeepsNoticesOk : Prop := ∀ s t : State, NoticesOk s → step s = .next t → NoticesOk t

/-- Every step keeps the bobbin table in order: drawn ≤ wound ≤ capacity on every record (R81, R83). -/
def Obligations.StepKeepsBobbinsOk : Prop := ∀ s t : State, BobbinsOk s → step s = .next t → BobbinsOk t

/-- Every step keeps the lot table in order, one record to a number, every field in its range, no more started than
ordered (R23 to R27, R31); and every step keeps the numeric settings in their ranges (R17, R186). -/
def Obligations.StepKeepsLotsAndSettingsOk : Prop :=
  ∀ s t : State, step s = .next t → (LotsOk s → LotsOk t) ∧ (SettingsOk s → SettingsOk t)

/-- Every step keeps the station records in order, and C0 carries COILER_HALT exactly while K0 is HALTED and C0 holds a
lot (R1, R4 to R7). -/
def Obligations.StepKeepsStationsOk : Prop :=
  ∀ s t : State, StationsOk s → CoilerHaltOk s → step s = .next t → StationsOk t ∧ CoilerHaltOk t

/-- Every step keeps the coiling unit in order: the tag list and the outbound list in their sizes and every tag in one
place (R150, R152); at most one arbor receiving rope, at most one PACKING or POSTING, and CUT_STOP on C0 while one is
CUTTING (R127; 08_coiling_and_packing.md, How the two arbors share the work). -/
def Obligations.StepKeepsCoilerOk : Prop :=
  ∀ s t : State, step s = .next t →
    (ListsOk s → ListsOk t) ∧ (TagsOk s → TagsOk t) ∧ (StationsOk s → ArborsOk s → ArborsOk t)

/-- The part right after reset is in order. The state right after reset is the model's choice where the spec gives no
value (assumption log 2, 3). -/
def Obligations.ResetIsSafe : Prop := SafeState State.reset
end

