-- ==== Sys2Proof/Laws/State.lean ====
section
/-! SUPPORT. The small lemmas of the state: what each update of one record leaves and gives, one lemma per field per
update, and reading back a record that was written. -/

namespace Sys2Proof.Machine

/-! ### setStation -/

@[simp] theorem State.setStation_pending (s : State) (i : Sta) (r : Station) : (s.setStation i r).pending = s.pending := rfl
@[simp] theorem State.setStation_now (s : State) (i : Sta) (r : Station) : (s.setStation i r).now = s.now := rfl
@[simp] theorem State.setStation_choices (s : State) (i : Sta) (r : Station) : (s.setStation i r).choices = s.choices := rfl
@[simp] theorem State.setStation_power (s : State) (i : Sta) (r : Station) : (s.setStation i r).power = s.power := rfl
@[simp] theorem State.setStation_supplyGood (s : State) (i : Sta) (r : Station) : (s.setStation i r).supplyGood = s.supplyGood := rfl
@[simp] theorem State.setStation_resetPin (s : State) (i : Sta) (r : Station) : (s.setStation i r).resetPin = s.resetPin := rfl
theorem State.setStation_stations (s : State) (i : Sta) (r : Station) : (s.setStation i r).stations = s.stations.set i r := rfl
@[simp] theorem State.setStation_twists (s : State) (i : Sta) (r : Station) : (s.setStation i r).twists = s.twists := rfl
@[simp] theorem State.setStation_channels (s : State) (i : Sta) (r : Station) : (s.setStation i r).channels = s.channels := rfl
@[simp] theorem State.setStation_ports (s : State) (i : Sta) (r : Station) : (s.setStation i r).ports = s.ports := rfl
@[simp] theorem State.setStation_queues (s : State) (i : Sta) (r : Station) : (s.setStation i r).queues = s.queues := rfl
@[simp] theorem State.setStation_lots (s : State) (i : Sta) (r : Station) : (s.setStation i r).lots = s.lots := rfl
@[simp] theorem State.setStation_segments (s : State) (i : Sta) (r : Station) : (s.setStation i r).segments = s.segments := rfl
@[simp] theorem State.setStation_bobbins (s : State) (i : Sta) (r : Station) : (s.setStation i r).bobbins = s.bobbins := rfl
@[simp] theorem State.setStation_residues (s : State) (i : Sta) (r : Station) : (s.setStation i r).residues = s.residues := rfl
@[simp] theorem State.setStation_closerShort (s : State) (i : Sta) (r : Station) : (s.setStation i r).closerShort = s.closerShort := rfl
@[simp] theorem State.setStation_looms (s : State) (i : Sta) (r : Station) : (s.setStation i r).looms = s.looms := rfl
@[simp] theorem State.setStation_meter (s : State) (i : Sta) (r : Station) : (s.setStation i r).meter = s.meter := rfl
@[simp] theorem State.setStation_coiler (s : State) (i : Sta) (r : Station) : (s.setStation i r).coiler = s.coiler := rfl
@[simp] theorem State.setStation_settings (s : State) (i : Sta) (r : Station) : (s.setStation i r).settings = s.settings := rfl
@[simp] theorem State.setStation_store (s : State) (i : Sta) (r : Station) : (s.setStation i r).store = s.store := rfl
@[simp] theorem State.setStation_commit (s : State) (i : Sta) (r : Station) : (s.setStation i r).commit = s.commit := rfl
@[simp] theorem State.setStation_imageValid (s : State) (i : Sta) (r : Station) : (s.setStation i r).imageValid = s.imageValid := rfl
@[simp] theorem State.setStation_image (s : State) (i : Sta) (r : Station) : (s.setStation i r).image = s.image := rfl

/-! ### setTwist -/

@[simp] theorem State.setTwist_pending (s : State) (t : Twi) (r : Twist) : (s.setTwist t r).pending = s.pending := rfl
@[simp] theorem State.setTwist_now (s : State) (t : Twi) (r : Twist) : (s.setTwist t r).now = s.now := rfl
@[simp] theorem State.setTwist_choices (s : State) (t : Twi) (r : Twist) : (s.setTwist t r).choices = s.choices := rfl
@[simp] theorem State.setTwist_power (s : State) (t : Twi) (r : Twist) : (s.setTwist t r).power = s.power := rfl
@[simp] theorem State.setTwist_supplyGood (s : State) (t : Twi) (r : Twist) : (s.setTwist t r).supplyGood = s.supplyGood := rfl
@[simp] theorem State.setTwist_resetPin (s : State) (t : Twi) (r : Twist) : (s.setTwist t r).resetPin = s.resetPin := rfl
@[simp] theorem State.setTwist_stations (s : State) (t : Twi) (r : Twist) : (s.setTwist t r).stations = s.stations := rfl
theorem State.setTwist_twists (s : State) (t : Twi) (r : Twist) : (s.setTwist t r).twists = s.twists.set t r := rfl
@[simp] theorem State.setTwist_channels (s : State) (t : Twi) (r : Twist) : (s.setTwist t r).channels = s.channels := rfl
@[simp] theorem State.setTwist_ports (s : State) (t : Twi) (r : Twist) : (s.setTwist t r).ports = s.ports := rfl
@[simp] theorem State.setTwist_queues (s : State) (t : Twi) (r : Twist) : (s.setTwist t r).queues = s.queues := rfl
@[simp] theorem State.setTwist_lots (s : State) (t : Twi) (r : Twist) : (s.setTwist t r).lots = s.lots := rfl
@[simp] theorem State.setTwist_segments (s : State) (t : Twi) (r : Twist) : (s.setTwist t r).segments = s.segments := rfl
@[simp] theorem State.setTwist_bobbins (s : State) (t : Twi) (r : Twist) : (s.setTwist t r).bobbins = s.bobbins := rfl
@[simp] theorem State.setTwist_residues (s : State) (t : Twi) (r : Twist) : (s.setTwist t r).residues = s.residues := rfl
@[simp] theorem State.setTwist_closerShort (s : State) (t : Twi) (r : Twist) : (s.setTwist t r).closerShort = s.closerShort := rfl
@[simp] theorem State.setTwist_looms (s : State) (t : Twi) (r : Twist) : (s.setTwist t r).looms = s.looms := rfl
@[simp] theorem State.setTwist_meter (s : State) (t : Twi) (r : Twist) : (s.setTwist t r).meter = s.meter := rfl
@[simp] theorem State.setTwist_coiler (s : State) (t : Twi) (r : Twist) : (s.setTwist t r).coiler = s.coiler := rfl
@[simp] theorem State.setTwist_settings (s : State) (t : Twi) (r : Twist) : (s.setTwist t r).settings = s.settings := rfl
@[simp] theorem State.setTwist_store (s : State) (t : Twi) (r : Twist) : (s.setTwist t r).store = s.store := rfl
@[simp] theorem State.setTwist_commit (s : State) (t : Twi) (r : Twist) : (s.setTwist t r).commit = s.commit := rfl
@[simp] theorem State.setTwist_imageValid (s : State) (t : Twi) (r : Twist) : (s.setTwist t r).imageValid = s.imageValid := rfl
@[simp] theorem State.setTwist_image (s : State) (t : Twi) (r : Twist) : (s.setTwist t r).image = s.image := rfl

/-! ### setChannel -/

@[simp] theorem State.setChannel_pending (s : State) (c : Chan) (r : Channel) : (s.setChannel c r).pending = s.pending := rfl
@[simp] theorem State.setChannel_now (s : State) (c : Chan) (r : Channel) : (s.setChannel c r).now = s.now := rfl
@[simp] theorem State.setChannel_choices (s : State) (c : Chan) (r : Channel) : (s.setChannel c r).choices = s.choices := rfl
@[simp] theorem State.setChannel_power (s : State) (c : Chan) (r : Channel) : (s.setChannel c r).power = s.power := rfl
@[simp] theorem State.setChannel_supplyGood (s : State) (c : Chan) (r : Channel) : (s.setChannel c r).supplyGood = s.supplyGood := rfl
@[simp] theorem State.setChannel_resetPin (s : State) (c : Chan) (r : Channel) : (s.setChannel c r).resetPin = s.resetPin := rfl
@[simp] theorem State.setChannel_stations (s : State) (c : Chan) (r : Channel) : (s.setChannel c r).stations = s.stations := rfl
@[simp] theorem State.setChannel_twists (s : State) (c : Chan) (r : Channel) : (s.setChannel c r).twists = s.twists := rfl
theorem State.setChannel_channels (s : State) (c : Chan) (r : Channel) : (s.setChannel c r).channels = s.channels.set c r := rfl
@[simp] theorem State.setChannel_ports (s : State) (c : Chan) (r : Channel) : (s.setChannel c r).ports = s.ports := rfl
@[simp] theorem State.setChannel_queues (s : State) (c : Chan) (r : Channel) : (s.setChannel c r).queues = s.queues := rfl
@[simp] theorem State.setChannel_lots (s : State) (c : Chan) (r : Channel) : (s.setChannel c r).lots = s.lots := rfl
@[simp] theorem State.setChannel_segments (s : State) (c : Chan) (r : Channel) : (s.setChannel c r).segments = s.segments := rfl
@[simp] theorem State.setChannel_bobbins (s : State) (c : Chan) (r : Channel) : (s.setChannel c r).bobbins = s.bobbins := rfl
@[simp] theorem State.setChannel_residues (s : State) (c : Chan) (r : Channel) : (s.setChannel c r).residues = s.residues := rfl
@[simp] theorem State.setChannel_closerShort (s : State) (c : Chan) (r : Channel) : (s.setChannel c r).closerShort = s.closerShort := rfl
@[simp] theorem State.setChannel_looms (s : State) (c : Chan) (r : Channel) : (s.setChannel c r).looms = s.looms := rfl
@[simp] theorem State.setChannel_meter (s : State) (c : Chan) (r : Channel) : (s.setChannel c r).meter = s.meter := rfl
@[simp] theorem State.setChannel_coiler (s : State) (c : Chan) (r : Channel) : (s.setChannel c r).coiler = s.coiler := rfl
@[simp] theorem State.setChannel_settings (s : State) (c : Chan) (r : Channel) : (s.setChannel c r).settings = s.settings := rfl
@[simp] theorem State.setChannel_store (s : State) (c : Chan) (r : Channel) : (s.setChannel c r).store = s.store := rfl
@[simp] theorem State.setChannel_commit (s : State) (c : Chan) (r : Channel) : (s.setChannel c r).commit = s.commit := rfl
@[simp] theorem State.setChannel_imageValid (s : State) (c : Chan) (r : Channel) : (s.setChannel c r).imageValid = s.imageValid := rfl
@[simp] theorem State.setChannel_image (s : State) (c : Chan) (r : Channel) : (s.setChannel c r).image = s.image := rfl

/-! ### setPort -/

@[simp] theorem State.setPort_pending (s : State) (p : Port) (r : PortUnit) : (s.setPort p r).pending = s.pending := rfl
@[simp] theorem State.setPort_now (s : State) (p : Port) (r : PortUnit) : (s.setPort p r).now = s.now := rfl
@[simp] theorem State.setPort_choices (s : State) (p : Port) (r : PortUnit) : (s.setPort p r).choices = s.choices := rfl
@[simp] theorem State.setPort_power (s : State) (p : Port) (r : PortUnit) : (s.setPort p r).power = s.power := rfl
@[simp] theorem State.setPort_supplyGood (s : State) (p : Port) (r : PortUnit) : (s.setPort p r).supplyGood = s.supplyGood := rfl
@[simp] theorem State.setPort_resetPin (s : State) (p : Port) (r : PortUnit) : (s.setPort p r).resetPin = s.resetPin := rfl
@[simp] theorem State.setPort_stations (s : State) (p : Port) (r : PortUnit) : (s.setPort p r).stations = s.stations := rfl
@[simp] theorem State.setPort_twists (s : State) (p : Port) (r : PortUnit) : (s.setPort p r).twists = s.twists := rfl
@[simp] theorem State.setPort_channels (s : State) (p : Port) (r : PortUnit) : (s.setPort p r).channels = s.channels := rfl
theorem State.setPort_ports (s : State) (p : Port) (r : PortUnit) : (s.setPort p r).ports = s.ports.set p r := rfl
@[simp] theorem State.setPort_queues (s : State) (p : Port) (r : PortUnit) : (s.setPort p r).queues = s.queues := rfl
@[simp] theorem State.setPort_lots (s : State) (p : Port) (r : PortUnit) : (s.setPort p r).lots = s.lots := rfl
@[simp] theorem State.setPort_segments (s : State) (p : Port) (r : PortUnit) : (s.setPort p r).segments = s.segments := rfl
@[simp] theorem State.setPort_bobbins (s : State) (p : Port) (r : PortUnit) : (s.setPort p r).bobbins = s.bobbins := rfl
@[simp] theorem State.setPort_residues (s : State) (p : Port) (r : PortUnit) : (s.setPort p r).residues = s.residues := rfl
@[simp] theorem State.setPort_closerShort (s : State) (p : Port) (r : PortUnit) : (s.setPort p r).closerShort = s.closerShort := rfl
@[simp] theorem State.setPort_looms (s : State) (p : Port) (r : PortUnit) : (s.setPort p r).looms = s.looms := rfl
@[simp] theorem State.setPort_meter (s : State) (p : Port) (r : PortUnit) : (s.setPort p r).meter = s.meter := rfl
@[simp] theorem State.setPort_coiler (s : State) (p : Port) (r : PortUnit) : (s.setPort p r).coiler = s.coiler := rfl
@[simp] theorem State.setPort_settings (s : State) (p : Port) (r : PortUnit) : (s.setPort p r).settings = s.settings := rfl
@[simp] theorem State.setPort_store (s : State) (p : Port) (r : PortUnit) : (s.setPort p r).store = s.store := rfl
@[simp] theorem State.setPort_commit (s : State) (p : Port) (r : PortUnit) : (s.setPort p r).commit = s.commit := rfl
@[simp] theorem State.setPort_imageValid (s : State) (p : Port) (r : PortUnit) : (s.setPort p r).imageValid = s.imageValid := rfl
@[simp] theorem State.setPort_image (s : State) (p : Port) (r : PortUnit) : (s.setPort p r).image = s.image := rfl

/-! ### setQueue -/

@[simp] theorem State.setQueue_pending (s : State) (p : Port) (q : List Entry) : (s.setQueue p q).pending = s.pending := rfl
@[simp] theorem State.setQueue_now (s : State) (p : Port) (q : List Entry) : (s.setQueue p q).now = s.now := rfl
@[simp] theorem State.setQueue_choices (s : State) (p : Port) (q : List Entry) : (s.setQueue p q).choices = s.choices := rfl
@[simp] theorem State.setQueue_power (s : State) (p : Port) (q : List Entry) : (s.setQueue p q).power = s.power := rfl
@[simp] theorem State.setQueue_supplyGood (s : State) (p : Port) (q : List Entry) : (s.setQueue p q).supplyGood = s.supplyGood := rfl
@[simp] theorem State.setQueue_resetPin (s : State) (p : Port) (q : List Entry) : (s.setQueue p q).resetPin = s.resetPin := rfl
@[simp] theorem State.setQueue_stations (s : State) (p : Port) (q : List Entry) : (s.setQueue p q).stations = s.stations := rfl
@[simp] theorem State.setQueue_twists (s : State) (p : Port) (q : List Entry) : (s.setQueue p q).twists = s.twists := rfl
@[simp] theorem State.setQueue_channels (s : State) (p : Port) (q : List Entry) : (s.setQueue p q).channels = s.channels := rfl
@[simp] theorem State.setQueue_ports (s : State) (p : Port) (q : List Entry) : (s.setQueue p q).ports = s.ports := rfl
theorem State.setQueue_queues (s : State) (p : Port) (q : List Entry) : (s.setQueue p q).queues = s.queues.set p q := rfl
@[simp] theorem State.setQueue_lots (s : State) (p : Port) (q : List Entry) : (s.setQueue p q).lots = s.lots := rfl
@[simp] theorem State.setQueue_segments (s : State) (p : Port) (q : List Entry) : (s.setQueue p q).segments = s.segments := rfl
@[simp] theorem State.setQueue_bobbins (s : State) (p : Port) (q : List Entry) : (s.setQueue p q).bobbins = s.bobbins := rfl
@[simp] theorem State.setQueue_residues (s : State) (p : Port) (q : List Entry) : (s.setQueue p q).residues = s.residues := rfl
@[simp] theorem State.setQueue_closerShort (s : State) (p : Port) (q : List Entry) : (s.setQueue p q).closerShort = s.closerShort := rfl
@[simp] theorem State.setQueue_looms (s : State) (p : Port) (q : List Entry) : (s.setQueue p q).looms = s.looms := rfl
@[simp] theorem State.setQueue_meter (s : State) (p : Port) (q : List Entry) : (s.setQueue p q).meter = s.meter := rfl
@[simp] theorem State.setQueue_coiler (s : State) (p : Port) (q : List Entry) : (s.setQueue p q).coiler = s.coiler := rfl
@[simp] theorem State.setQueue_settings (s : State) (p : Port) (q : List Entry) : (s.setQueue p q).settings = s.settings := rfl
@[simp] theorem State.setQueue_store (s : State) (p : Port) (q : List Entry) : (s.setQueue p q).store = s.store := rfl
@[simp] theorem State.setQueue_commit (s : State) (p : Port) (q : List Entry) : (s.setQueue p q).commit = s.commit := rfl
@[simp] theorem State.setQueue_imageValid (s : State) (p : Port) (q : List Entry) : (s.setQueue p q).imageValid = s.imageValid := rfl
@[simp] theorem State.setQueue_image (s : State) (p : Port) (q : List Entry) : (s.setQueue p q).image = s.image := rfl

/-! ### setLoom -/

@[simp] theorem State.setLoom_pending (s : State) (l : Loom) (r : LoomPos) : (s.setLoom l r).pending = s.pending := rfl
@[simp] theorem State.setLoom_now (s : State) (l : Loom) (r : LoomPos) : (s.setLoom l r).now = s.now := rfl
@[simp] theorem State.setLoom_choices (s : State) (l : Loom) (r : LoomPos) : (s.setLoom l r).choices = s.choices := rfl
@[simp] theorem State.setLoom_power (s : State) (l : Loom) (r : LoomPos) : (s.setLoom l r).power = s.power := rfl
@[simp] theorem State.setLoom_supplyGood (s : State) (l : Loom) (r : LoomPos) : (s.setLoom l r).supplyGood = s.supplyGood := rfl
@[simp] theorem State.setLoom_resetPin (s : State) (l : Loom) (r : LoomPos) : (s.setLoom l r).resetPin = s.resetPin := rfl
@[simp] theorem State.setLoom_stations (s : State) (l : Loom) (r : LoomPos) : (s.setLoom l r).stations = s.stations := rfl
@[simp] theorem State.setLoom_twists (s : State) (l : Loom) (r : LoomPos) : (s.setLoom l r).twists = s.twists := rfl
@[simp] theorem State.setLoom_channels (s : State) (l : Loom) (r : LoomPos) : (s.setLoom l r).channels = s.channels := rfl
@[simp] theorem State.setLoom_ports (s : State) (l : Loom) (r : LoomPos) : (s.setLoom l r).ports = s.ports := rfl
@[simp] theorem State.setLoom_queues (s : State) (l : Loom) (r : LoomPos) : (s.setLoom l r).queues = s.queues := rfl
@[simp] theorem State.setLoom_lots (s : State) (l : Loom) (r : LoomPos) : (s.setLoom l r).lots = s.lots := rfl
@[simp] theorem State.setLoom_segments (s : State) (l : Loom) (r : LoomPos) : (s.setLoom l r).segments = s.segments := rfl
@[simp] theorem State.setLoom_bobbins (s : State) (l : Loom) (r : LoomPos) : (s.setLoom l r).bobbins = s.bobbins := rfl
@[simp] theorem State.setLoom_residues (s : State) (l : Loom) (r : LoomPos) : (s.setLoom l r).residues = s.residues := rfl
@[simp] theorem State.setLoom_closerShort (s : State) (l : Loom) (r : LoomPos) : (s.setLoom l r).closerShort = s.closerShort := rfl
theorem State.setLoom_looms (s : State) (l : Loom) (r : LoomPos) : (s.setLoom l r).looms = s.looms.set l r := rfl
@[simp] theorem State.setLoom_meter (s : State) (l : Loom) (r : LoomPos) : (s.setLoom l r).meter = s.meter := rfl
@[simp] theorem State.setLoom_coiler (s : State) (l : Loom) (r : LoomPos) : (s.setLoom l r).coiler = s.coiler := rfl
@[simp] theorem State.setLoom_settings (s : State) (l : Loom) (r : LoomPos) : (s.setLoom l r).settings = s.settings := rfl
@[simp] theorem State.setLoom_store (s : State) (l : Loom) (r : LoomPos) : (s.setLoom l r).store = s.store := rfl
@[simp] theorem State.setLoom_commit (s : State) (l : Loom) (r : LoomPos) : (s.setLoom l r).commit = s.commit := rfl
@[simp] theorem State.setLoom_imageValid (s : State) (l : Loom) (r : LoomPos) : (s.setLoom l r).imageValid = s.imageValid := rfl
@[simp] theorem State.setLoom_image (s : State) (l : Loom) (r : LoomPos) : (s.setLoom l r).image = s.image := rfl

/-! ### setSegment -/

@[simp] theorem State.setSegment_pending (s : State) (i : SegIx) (g : Segment) : (s.setSegment i g).pending = s.pending := rfl
@[simp] theorem State.setSegment_now (s : State) (i : SegIx) (g : Segment) : (s.setSegment i g).now = s.now := rfl
@[simp] theorem State.setSegment_choices (s : State) (i : SegIx) (g : Segment) : (s.setSegment i g).choices = s.choices := rfl
@[simp] theorem State.setSegment_power (s : State) (i : SegIx) (g : Segment) : (s.setSegment i g).power = s.power := rfl
@[simp] theorem State.setSegment_supplyGood (s : State) (i : SegIx) (g : Segment) : (s.setSegment i g).supplyGood = s.supplyGood := rfl
@[simp] theorem State.setSegment_resetPin (s : State) (i : SegIx) (g : Segment) : (s.setSegment i g).resetPin = s.resetPin := rfl
@[simp] theorem State.setSegment_stations (s : State) (i : SegIx) (g : Segment) : (s.setSegment i g).stations = s.stations := rfl
@[simp] theorem State.setSegment_twists (s : State) (i : SegIx) (g : Segment) : (s.setSegment i g).twists = s.twists := rfl
@[simp] theorem State.setSegment_channels (s : State) (i : SegIx) (g : Segment) : (s.setSegment i g).channels = s.channels := rfl
@[simp] theorem State.setSegment_ports (s : State) (i : SegIx) (g : Segment) : (s.setSegment i g).ports = s.ports := rfl
@[simp] theorem State.setSegment_queues (s : State) (i : SegIx) (g : Segment) : (s.setSegment i g).queues = s.queues := rfl
@[simp] theorem State.setSegment_lots (s : State) (i : SegIx) (g : Segment) : (s.setSegment i g).lots = s.lots := rfl
theorem State.setSegment_segments (s : State) (i : SegIx) (g : Segment) : (s.setSegment i g).segments = s.segments.set i g := rfl
@[simp] theorem State.setSegment_bobbins (s : State) (i : SegIx) (g : Segment) : (s.setSegment i g).bobbins = s.bobbins := rfl
@[simp] theorem State.setSegment_residues (s : State) (i : SegIx) (g : Segment) : (s.setSegment i g).residues = s.residues := rfl
@[simp] theorem State.setSegment_closerShort (s : State) (i : SegIx) (g : Segment) : (s.setSegment i g).closerShort = s.closerShort := rfl
@[simp] theorem State.setSegment_looms (s : State) (i : SegIx) (g : Segment) : (s.setSegment i g).looms = s.looms := rfl
@[simp] theorem State.setSegment_meter (s : State) (i : SegIx) (g : Segment) : (s.setSegment i g).meter = s.meter := rfl
@[simp] theorem State.setSegment_coiler (s : State) (i : SegIx) (g : Segment) : (s.setSegment i g).coiler = s.coiler := rfl
@[simp] theorem State.setSegment_settings (s : State) (i : SegIx) (g : Segment) : (s.setSegment i g).settings = s.settings := rfl
@[simp] theorem State.setSegment_store (s : State) (i : SegIx) (g : Segment) : (s.setSegment i g).store = s.store := rfl
@[simp] theorem State.setSegment_commit (s : State) (i : SegIx) (g : Segment) : (s.setSegment i g).commit = s.commit := rfl
@[simp] theorem State.setSegment_imageValid (s : State) (i : SegIx) (g : Segment) : (s.setSegment i g).imageValid = s.imageValid := rfl
@[simp] theorem State.setSegment_image (s : State) (i : SegIx) (g : Segment) : (s.setSegment i g).image = s.image := rfl

/-! ### setLot -/

@[simp] theorem State.setLot_pending (s : State) (k : Slot) (o : Option Lot) : (s.setLot k o).pending = s.pending := rfl
@[simp] theorem State.setLot_now (s : State) (k : Slot) (o : Option Lot) : (s.setLot k o).now = s.now := rfl
@[simp] theorem State.setLot_choices (s : State) (k : Slot) (o : Option Lot) : (s.setLot k o).choices = s.choices := rfl
@[simp] theorem State.setLot_power (s : State) (k : Slot) (o : Option Lot) : (s.setLot k o).power = s.power := rfl
@[simp] theorem State.setLot_supplyGood (s : State) (k : Slot) (o : Option Lot) : (s.setLot k o).supplyGood = s.supplyGood := rfl
@[simp] theorem State.setLot_resetPin (s : State) (k : Slot) (o : Option Lot) : (s.setLot k o).resetPin = s.resetPin := rfl
@[simp] theorem State.setLot_stations (s : State) (k : Slot) (o : Option Lot) : (s.setLot k o).stations = s.stations := rfl
@[simp] theorem State.setLot_twists (s : State) (k : Slot) (o : Option Lot) : (s.setLot k o).twists = s.twists := rfl
@[simp] theorem State.setLot_channels (s : State) (k : Slot) (o : Option Lot) : (s.setLot k o).channels = s.channels := rfl
@[simp] theorem State.setLot_ports (s : State) (k : Slot) (o : Option Lot) : (s.setLot k o).ports = s.ports := rfl
@[simp] theorem State.setLot_queues (s : State) (k : Slot) (o : Option Lot) : (s.setLot k o).queues = s.queues := rfl
theorem State.setLot_lots (s : State) (k : Slot) (o : Option Lot) : (s.setLot k o).lots = s.lots.set k o := rfl
@[simp] theorem State.setLot_segments (s : State) (k : Slot) (o : Option Lot) : (s.setLot k o).segments = s.segments := rfl
@[simp] theorem State.setLot_bobbins (s : State) (k : Slot) (o : Option Lot) : (s.setLot k o).bobbins = s.bobbins := rfl
@[simp] theorem State.setLot_residues (s : State) (k : Slot) (o : Option Lot) : (s.setLot k o).residues = s.residues := rfl
@[simp] theorem State.setLot_closerShort (s : State) (k : Slot) (o : Option Lot) : (s.setLot k o).closerShort = s.closerShort := rfl
@[simp] theorem State.setLot_looms (s : State) (k : Slot) (o : Option Lot) : (s.setLot k o).looms = s.looms := rfl
@[simp] theorem State.setLot_meter (s : State) (k : Slot) (o : Option Lot) : (s.setLot k o).meter = s.meter := rfl
@[simp] theorem State.setLot_coiler (s : State) (k : Slot) (o : Option Lot) : (s.setLot k o).coiler = s.coiler := rfl
@[simp] theorem State.setLot_settings (s : State) (k : Slot) (o : Option Lot) : (s.setLot k o).settings = s.settings := rfl
@[simp] theorem State.setLot_store (s : State) (k : Slot) (o : Option Lot) : (s.setLot k o).store = s.store := rfl
@[simp] theorem State.setLot_commit (s : State) (k : Slot) (o : Option Lot) : (s.setLot k o).commit = s.commit := rfl
@[simp] theorem State.setLot_imageValid (s : State) (k : Slot) (o : Option Lot) : (s.setLot k o).imageValid = s.imageValid := rfl
@[simp] theorem State.setLot_image (s : State) (k : Slot) (o : Option Lot) : (s.setLot k o).image = s.image := rfl

/-! ### setBobbins -/

@[simp] theorem State.setBobbins_pending (s : State) (bs : List Bobbin) : (s.setBobbins bs).pending = s.pending := rfl
@[simp] theorem State.setBobbins_now (s : State) (bs : List Bobbin) : (s.setBobbins bs).now = s.now := rfl
@[simp] theorem State.setBobbins_choices (s : State) (bs : List Bobbin) : (s.setBobbins bs).choices = s.choices := rfl
@[simp] theorem State.setBobbins_power (s : State) (bs : List Bobbin) : (s.setBobbins bs).power = s.power := rfl
@[simp] theorem State.setBobbins_supplyGood (s : State) (bs : List Bobbin) : (s.setBobbins bs).supplyGood = s.supplyGood := rfl
@[simp] theorem State.setBobbins_resetPin (s : State) (bs : List Bobbin) : (s.setBobbins bs).resetPin = s.resetPin := rfl
@[simp] theorem State.setBobbins_stations (s : State) (bs : List Bobbin) : (s.setBobbins bs).stations = s.stations := rfl
@[simp] theorem State.setBobbins_twists (s : State) (bs : List Bobbin) : (s.setBobbins bs).twists = s.twists := rfl
@[simp] theorem State.setBobbins_channels (s : State) (bs : List Bobbin) : (s.setBobbins bs).channels = s.channels := rfl
@[simp] theorem State.setBobbins_ports (s : State) (bs : List Bobbin) : (s.setBobbins bs).ports = s.ports := rfl
@[simp] theorem State.setBobbins_queues (s : State) (bs : List Bobbin) : (s.setBobbins bs).queues = s.queues := rfl
@[simp] theorem State.setBobbins_lots (s : State) (bs : List Bobbin) : (s.setBobbins bs).lots = s.lots := rfl
@[simp] theorem State.setBobbins_segments (s : State) (bs : List Bobbin) : (s.setBobbins bs).segments = s.segments := rfl
@[simp] theorem State.setBobbins_bobbins (s : State) (bs : List Bobbin) : (s.setBobbins bs).bobbins = bs := rfl
@[simp] theorem State.setBobbins_residues (s : State) (bs : List Bobbin) : (s.setBobbins bs).residues = s.residues := rfl
@[simp] theorem State.setBobbins_closerShort (s : State) (bs : List Bobbin) : (s.setBobbins bs).closerShort = s.closerShort := rfl
@[simp] theorem State.setBobbins_looms (s : State) (bs : List Bobbin) : (s.setBobbins bs).looms = s.looms := rfl
@[simp] theorem State.setBobbins_meter (s : State) (bs : List Bobbin) : (s.setBobbins bs).meter = s.meter := rfl
@[simp] theorem State.setBobbins_coiler (s : State) (bs : List Bobbin) : (s.setBobbins bs).coiler = s.coiler := rfl
@[simp] theorem State.setBobbins_settings (s : State) (bs : List Bobbin) : (s.setBobbins bs).settings = s.settings := rfl
@[simp] theorem State.setBobbins_store (s : State) (bs : List Bobbin) : (s.setBobbins bs).store = s.store := rfl
@[simp] theorem State.setBobbins_commit (s : State) (bs : List Bobbin) : (s.setBobbins bs).commit = s.commit := rfl
@[simp] theorem State.setBobbins_imageValid (s : State) (bs : List Bobbin) : (s.setBobbins bs).imageValid = s.imageValid := rfl
@[simp] theorem State.setBobbins_image (s : State) (bs : List Bobbin) : (s.setBobbins bs).image = s.image := rfl

/-! ### setMeter -/

@[simp] theorem State.setMeter_pending (s : State) (m : Meter) : (s.setMeter m).pending = s.pending := rfl
@[simp] theorem State.setMeter_now (s : State) (m : Meter) : (s.setMeter m).now = s.now := rfl
@[simp] theorem State.setMeter_choices (s : State) (m : Meter) : (s.setMeter m).choices = s.choices := rfl
@[simp] theorem State.setMeter_power (s : State) (m : Meter) : (s.setMeter m).power = s.power := rfl
@[simp] theorem State.setMeter_supplyGood (s : State) (m : Meter) : (s.setMeter m).supplyGood = s.supplyGood := rfl
@[simp] theorem State.setMeter_resetPin (s : State) (m : Meter) : (s.setMeter m).resetPin = s.resetPin := rfl
@[simp] theorem State.setMeter_stations (s : State) (m : Meter) : (s.setMeter m).stations = s.stations := rfl
@[simp] theorem State.setMeter_twists (s : State) (m : Meter) : (s.setMeter m).twists = s.twists := rfl
@[simp] theorem State.setMeter_channels (s : State) (m : Meter) : (s.setMeter m).channels = s.channels := rfl
@[simp] theorem State.setMeter_ports (s : State) (m : Meter) : (s.setMeter m).ports = s.ports := rfl
@[simp] theorem State.setMeter_queues (s : State) (m : Meter) : (s.setMeter m).queues = s.queues := rfl
@[simp] theorem State.setMeter_lots (s : State) (m : Meter) : (s.setMeter m).lots = s.lots := rfl
@[simp] theorem State.setMeter_segments (s : State) (m : Meter) : (s.setMeter m).segments = s.segments := rfl
@[simp] theorem State.setMeter_bobbins (s : State) (m : Meter) : (s.setMeter m).bobbins = s.bobbins := rfl
@[simp] theorem State.setMeter_residues (s : State) (m : Meter) : (s.setMeter m).residues = s.residues := rfl
@[simp] theorem State.setMeter_closerShort (s : State) (m : Meter) : (s.setMeter m).closerShort = s.closerShort := rfl
@[simp] theorem State.setMeter_looms (s : State) (m : Meter) : (s.setMeter m).looms = s.looms := rfl
@[simp] theorem State.setMeter_meter (s : State) (m : Meter) : (s.setMeter m).meter = m := rfl
@[simp] theorem State.setMeter_coiler (s : State) (m : Meter) : (s.setMeter m).coiler = s.coiler := rfl
@[simp] theorem State.setMeter_settings (s : State) (m : Meter) : (s.setMeter m).settings = s.settings := rfl
@[simp] theorem State.setMeter_store (s : State) (m : Meter) : (s.setMeter m).store = s.store := rfl
@[simp] theorem State.setMeter_commit (s : State) (m : Meter) : (s.setMeter m).commit = s.commit := rfl
@[simp] theorem State.setMeter_imageValid (s : State) (m : Meter) : (s.setMeter m).imageValid = s.imageValid := rfl
@[simp] theorem State.setMeter_image (s : State) (m : Meter) : (s.setMeter m).image = s.image := rfl

/-! ### setCoiler -/

@[simp] theorem State.setCoiler_pending (s : State) (k : Coiler) : (s.setCoiler k).pending = s.pending := rfl
@[simp] theorem State.setCoiler_now (s : State) (k : Coiler) : (s.setCoiler k).now = s.now := rfl
@[simp] theorem State.setCoiler_choices (s : State) (k : Coiler) : (s.setCoiler k).choices = s.choices := rfl
@[simp] theorem State.setCoiler_power (s : State) (k : Coiler) : (s.setCoiler k).power = s.power := rfl
@[simp] theorem State.setCoiler_supplyGood (s : State) (k : Coiler) : (s.setCoiler k).supplyGood = s.supplyGood := rfl
@[simp] theorem State.setCoiler_resetPin (s : State) (k : Coiler) : (s.setCoiler k).resetPin = s.resetPin := rfl
@[simp] theorem State.setCoiler_stations (s : State) (k : Coiler) : (s.setCoiler k).stations = s.stations := rfl
@[simp] theorem State.setCoiler_twists (s : State) (k : Coiler) : (s.setCoiler k).twists = s.twists := rfl
@[simp] theorem State.setCoiler_channels (s : State) (k : Coiler) : (s.setCoiler k).channels = s.channels := rfl
@[simp] theorem State.setCoiler_ports (s : State) (k : Coiler) : (s.setCoiler k).ports = s.ports := rfl
@[simp] theorem State.setCoiler_queues (s : State) (k : Coiler) : (s.setCoiler k).queues = s.queues := rfl
@[simp] theorem State.setCoiler_lots (s : State) (k : Coiler) : (s.setCoiler k).lots = s.lots := rfl
@[simp] theorem State.setCoiler_segments (s : State) (k : Coiler) : (s.setCoiler k).segments = s.segments := rfl
@[simp] theorem State.setCoiler_bobbins (s : State) (k : Coiler) : (s.setCoiler k).bobbins = s.bobbins := rfl
@[simp] theorem State.setCoiler_residues (s : State) (k : Coiler) : (s.setCoiler k).residues = s.residues := rfl
@[simp] theorem State.setCoiler_closerShort (s : State) (k : Coiler) : (s.setCoiler k).closerShort = s.closerShort := rfl
@[simp] theorem State.setCoiler_looms (s : State) (k : Coiler) : (s.setCoiler k).looms = s.looms := rfl
@[simp] theorem State.setCoiler_meter (s : State) (k : Coiler) : (s.setCoiler k).meter = s.meter := rfl
@[simp] theorem State.setCoiler_coiler (s : State) (k : Coiler) : (s.setCoiler k).coiler = k := rfl
@[simp] theorem State.setCoiler_settings (s : State) (k : Coiler) : (s.setCoiler k).settings = s.settings := rfl
@[simp] theorem State.setCoiler_store (s : State) (k : Coiler) : (s.setCoiler k).store = s.store := rfl
@[simp] theorem State.setCoiler_commit (s : State) (k : Coiler) : (s.setCoiler k).commit = s.commit := rfl
@[simp] theorem State.setCoiler_imageValid (s : State) (k : Coiler) : (s.setCoiler k).imageValid = s.imageValid := rfl
@[simp] theorem State.setCoiler_image (s : State) (k : Coiler) : (s.setCoiler k).image = s.image := rfl

/-! ### setArbor -/

@[simp] theorem State.setArbor_pending (s : State) (id : ArborId) (r : Arbor) : (s.setArbor id r).pending = s.pending := rfl
@[simp] theorem State.setArbor_now (s : State) (id : ArborId) (r : Arbor) : (s.setArbor id r).now = s.now := rfl
@[simp] theorem State.setArbor_choices (s : State) (id : ArborId) (r : Arbor) : (s.setArbor id r).choices = s.choices := rfl
@[simp] theorem State.setArbor_power (s : State) (id : ArborId) (r : Arbor) : (s.setArbor id r).power = s.power := rfl
@[simp] theorem State.setArbor_supplyGood (s : State) (id : ArborId) (r : Arbor) : (s.setArbor id r).supplyGood = s.supplyGood := rfl
@[simp] theorem State.setArbor_resetPin (s : State) (id : ArborId) (r : Arbor) : (s.setArbor id r).resetPin = s.resetPin := rfl
@[simp] theorem State.setArbor_stations (s : State) (id : ArborId) (r : Arbor) : (s.setArbor id r).stations = s.stations := rfl
@[simp] theorem State.setArbor_twists (s : State) (id : ArborId) (r : Arbor) : (s.setArbor id r).twists = s.twists := rfl
@[simp] theorem State.setArbor_channels (s : State) (id : ArborId) (r : Arbor) : (s.setArbor id r).channels = s.channels := rfl
@[simp] theorem State.setArbor_ports (s : State) (id : ArborId) (r : Arbor) : (s.setArbor id r).ports = s.ports := rfl
@[simp] theorem State.setArbor_queues (s : State) (id : ArborId) (r : Arbor) : (s.setArbor id r).queues = s.queues := rfl
@[simp] theorem State.setArbor_lots (s : State) (id : ArborId) (r : Arbor) : (s.setArbor id r).lots = s.lots := rfl
@[simp] theorem State.setArbor_segments (s : State) (id : ArborId) (r : Arbor) : (s.setArbor id r).segments = s.segments := rfl
@[simp] theorem State.setArbor_bobbins (s : State) (id : ArborId) (r : Arbor) : (s.setArbor id r).bobbins = s.bobbins := rfl
@[simp] theorem State.setArbor_residues (s : State) (id : ArborId) (r : Arbor) : (s.setArbor id r).residues = s.residues := rfl
@[simp] theorem State.setArbor_closerShort (s : State) (id : ArborId) (r : Arbor) : (s.setArbor id r).closerShort = s.closerShort := rfl
@[simp] theorem State.setArbor_looms (s : State) (id : ArborId) (r : Arbor) : (s.setArbor id r).looms = s.looms := rfl
@[simp] theorem State.setArbor_meter (s : State) (id : ArborId) (r : Arbor) : (s.setArbor id r).meter = s.meter := rfl
@[simp] theorem State.setArbor_coiler (s : State) (id : ArborId) (r : Arbor) : (s.setArbor id r).coiler = s.coiler.setArbor id r := rfl
@[simp] theorem State.setArbor_settings (s : State) (id : ArborId) (r : Arbor) : (s.setArbor id r).settings = s.settings := rfl
@[simp] theorem State.setArbor_store (s : State) (id : ArborId) (r : Arbor) : (s.setArbor id r).store = s.store := rfl
@[simp] theorem State.setArbor_commit (s : State) (id : ArborId) (r : Arbor) : (s.setArbor id r).commit = s.commit := rfl
@[simp] theorem State.setArbor_imageValid (s : State) (id : ArborId) (r : Arbor) : (s.setArbor id r).imageValid = s.imageValid := rfl
@[simp] theorem State.setArbor_image (s : State) (id : ArborId) (r : Arbor) : (s.setArbor id r).image = s.image := rfl

/-! ### setSettings -/

@[simp] theorem State.setSettings_pending (s : State) (c : Settings) : (s.setSettings c).pending = s.pending := rfl
@[simp] theorem State.setSettings_now (s : State) (c : Settings) : (s.setSettings c).now = s.now := rfl
@[simp] theorem State.setSettings_choices (s : State) (c : Settings) : (s.setSettings c).choices = s.choices := rfl
@[simp] theorem State.setSettings_power (s : State) (c : Settings) : (s.setSettings c).power = s.power := rfl
@[simp] theorem State.setSettings_supplyGood (s : State) (c : Settings) : (s.setSettings c).supplyGood = s.supplyGood := rfl
@[simp] theorem State.setSettings_resetPin (s : State) (c : Settings) : (s.setSettings c).resetPin = s.resetPin := rfl
@[simp] theorem State.setSettings_stations (s : State) (c : Settings) : (s.setSettings c).stations = s.stations := rfl
@[simp] theorem State.setSettings_twists (s : State) (c : Settings) : (s.setSettings c).twists = s.twists := rfl
@[simp] theorem State.setSettings_channels (s : State) (c : Settings) : (s.setSettings c).channels = s.channels := rfl
@[simp] theorem State.setSettings_ports (s : State) (c : Settings) : (s.setSettings c).ports = s.ports := rfl
@[simp] theorem State.setSettings_queues (s : State) (c : Settings) : (s.setSettings c).queues = s.queues := rfl
@[simp] theorem State.setSettings_lots (s : State) (c : Settings) : (s.setSettings c).lots = s.lots := rfl
@[simp] theorem State.setSettings_segments (s : State) (c : Settings) : (s.setSettings c).segments = s.segments := rfl
@[simp] theorem State.setSettings_bobbins (s : State) (c : Settings) : (s.setSettings c).bobbins = s.bobbins := rfl
@[simp] theorem State.setSettings_residues (s : State) (c : Settings) : (s.setSettings c).residues = s.residues := rfl
@[simp] theorem State.setSettings_closerShort (s : State) (c : Settings) : (s.setSettings c).closerShort = s.closerShort := rfl
@[simp] theorem State.setSettings_looms (s : State) (c : Settings) : (s.setSettings c).looms = s.looms := rfl
@[simp] theorem State.setSettings_meter (s : State) (c : Settings) : (s.setSettings c).meter = s.meter := rfl
@[simp] theorem State.setSettings_coiler (s : State) (c : Settings) : (s.setSettings c).coiler = s.coiler := rfl
@[simp] theorem State.setSettings_settings (s : State) (c : Settings) : (s.setSettings c).settings = c := rfl
@[simp] theorem State.setSettings_store (s : State) (c : Settings) : (s.setSettings c).store = s.store := rfl
@[simp] theorem State.setSettings_commit (s : State) (c : Settings) : (s.setSettings c).commit = s.commit := rfl
@[simp] theorem State.setSettings_imageValid (s : State) (c : Settings) : (s.setSettings c).imageValid = s.imageValid := rfl
@[simp] theorem State.setSettings_image (s : State) (c : Settings) : (s.setSettings c).image = s.image := rfl

/-! ### advanceUs -/

@[simp] theorem State.advanceUs_pending (s : State) (x : Nat) : (s.advanceUs x).pending = s.pending := rfl
@[simp] theorem State.advanceUs_now (s : State) (x : Nat) : (s.advanceUs x).now = max s.now x := rfl
@[simp] theorem State.advanceUs_choices (s : State) (x : Nat) : (s.advanceUs x).choices = s.choices := rfl
@[simp] theorem State.advanceUs_power (s : State) (x : Nat) : (s.advanceUs x).power = s.power := rfl
@[simp] theorem State.advanceUs_supplyGood (s : State) (x : Nat) : (s.advanceUs x).supplyGood = s.supplyGood := rfl
@[simp] theorem State.advanceUs_resetPin (s : State) (x : Nat) : (s.advanceUs x).resetPin = s.resetPin := rfl
@[simp] theorem State.advanceUs_stations (s : State) (x : Nat) : (s.advanceUs x).stations = s.stations := rfl
@[simp] theorem State.advanceUs_twists (s : State) (x : Nat) : (s.advanceUs x).twists = s.twists := rfl
@[simp] theorem State.advanceUs_channels (s : State) (x : Nat) : (s.advanceUs x).channels = s.channels := rfl
@[simp] theorem State.advanceUs_ports (s : State) (x : Nat) : (s.advanceUs x).ports = s.ports := rfl
@[simp] theorem State.advanceUs_queues (s : State) (x : Nat) : (s.advanceUs x).queues = s.queues := rfl
@[simp] theorem State.advanceUs_lots (s : State) (x : Nat) : (s.advanceUs x).lots = s.lots := rfl
@[simp] theorem State.advanceUs_segments (s : State) (x : Nat) : (s.advanceUs x).segments = s.segments := rfl
@[simp] theorem State.advanceUs_bobbins (s : State) (x : Nat) : (s.advanceUs x).bobbins = s.bobbins := rfl
@[simp] theorem State.advanceUs_residues (s : State) (x : Nat) : (s.advanceUs x).residues = s.residues := rfl
@[simp] theorem State.advanceUs_closerShort (s : State) (x : Nat) : (s.advanceUs x).closerShort = s.closerShort := rfl
@[simp] theorem State.advanceUs_looms (s : State) (x : Nat) : (s.advanceUs x).looms = s.looms := rfl
@[simp] theorem State.advanceUs_meter (s : State) (x : Nat) : (s.advanceUs x).meter = s.meter := rfl
@[simp] theorem State.advanceUs_coiler (s : State) (x : Nat) : (s.advanceUs x).coiler = s.coiler := rfl
@[simp] theorem State.advanceUs_settings (s : State) (x : Nat) : (s.advanceUs x).settings = s.settings := rfl
@[simp] theorem State.advanceUs_store (s : State) (x : Nat) : (s.advanceUs x).store = s.store := rfl
@[simp] theorem State.advanceUs_commit (s : State) (x : Nat) : (s.advanceUs x).commit = s.commit := rfl
@[simp] theorem State.advanceUs_imageValid (s : State) (x : Nat) : (s.advanceUs x).imageValid = s.imageValid := rfl
@[simp] theorem State.advanceUs_image (s : State) (x : Nat) : (s.advanceUs x).image = s.image := rfl

/-! ### advanceMs -/

@[simp] theorem State.advanceMs_pending (s : State) (x : Nat) : (s.advanceMs x).pending = s.pending := rfl
@[simp] theorem State.advanceMs_now (s : State) (x : Nat) : (s.advanceMs x).now = max s.now (x * 1000) := rfl
@[simp] theorem State.advanceMs_choices (s : State) (x : Nat) : (s.advanceMs x).choices = s.choices := rfl
@[simp] theorem State.advanceMs_power (s : State) (x : Nat) : (s.advanceMs x).power = s.power := rfl
@[simp] theorem State.advanceMs_supplyGood (s : State) (x : Nat) : (s.advanceMs x).supplyGood = s.supplyGood := rfl
@[simp] theorem State.advanceMs_resetPin (s : State) (x : Nat) : (s.advanceMs x).resetPin = s.resetPin := rfl
@[simp] theorem State.advanceMs_stations (s : State) (x : Nat) : (s.advanceMs x).stations = s.stations := rfl
@[simp] theorem State.advanceMs_twists (s : State) (x : Nat) : (s.advanceMs x).twists = s.twists := rfl
@[simp] theorem State.advanceMs_channels (s : State) (x : Nat) : (s.advanceMs x).channels = s.channels := rfl
@[simp] theorem State.advanceMs_ports (s : State) (x : Nat) : (s.advanceMs x).ports = s.ports := rfl
@[simp] theorem State.advanceMs_queues (s : State) (x : Nat) : (s.advanceMs x).queues = s.queues := rfl
@[simp] theorem State.advanceMs_lots (s : State) (x : Nat) : (s.advanceMs x).lots = s.lots := rfl
@[simp] theorem State.advanceMs_segments (s : State) (x : Nat) : (s.advanceMs x).segments = s.segments := rfl
@[simp] theorem State.advanceMs_bobbins (s : State) (x : Nat) : (s.advanceMs x).bobbins = s.bobbins := rfl
@[simp] theorem State.advanceMs_residues (s : State) (x : Nat) : (s.advanceMs x).residues = s.residues := rfl
@[simp] theorem State.advanceMs_closerShort (s : State) (x : Nat) : (s.advanceMs x).closerShort = s.closerShort := rfl
@[simp] theorem State.advanceMs_looms (s : State) (x : Nat) : (s.advanceMs x).looms = s.looms := rfl
@[simp] theorem State.advanceMs_meter (s : State) (x : Nat) : (s.advanceMs x).meter = s.meter := rfl
@[simp] theorem State.advanceMs_coiler (s : State) (x : Nat) : (s.advanceMs x).coiler = s.coiler := rfl
@[simp] theorem State.advanceMs_settings (s : State) (x : Nat) : (s.advanceMs x).settings = s.settings := rfl
@[simp] theorem State.advanceMs_store (s : State) (x : Nat) : (s.advanceMs x).store = s.store := rfl
@[simp] theorem State.advanceMs_commit (s : State) (x : Nat) : (s.advanceMs x).commit = s.commit := rfl
@[simp] theorem State.advanceMs_imageValid (s : State) (x : Nat) : (s.advanceMs x).imageValid = s.imageValid := rfl
@[simp] theorem State.advanceMs_image (s : State) (x : Nat) : (s.advanceMs x).image = s.image := rfl

/-! ### Reading a record back -/

@[simp] theorem State.setStation_station_self (s : State) (i : Sta) (r : Station) : (s.setStation i r).station i = r := by
  simp [State.setStation, State.station]
theorem State.setStation_station_ne (s : State) (i : Sta) (r : Station) (j : Sta) (h : j ≠ i) : (s.setStation i r).station j = s.station j := by
  simp only [State.setStation, State.station]
  exact Vector.getElem_set_ne _ _ (fun e => h (Fin.ext e.symm))
theorem State.setStation_station (s : State) (i : Sta) (r : Station) (j : Sta) : (s.setStation i r).station j = if j = i then r else s.station j := by
  by_cases h : j = i
  · subst h; simp
  · simp [h, State.setStation_station_ne _ _ _ _ h]
@[simp] theorem State.setStation_station_id (s : State) (i : Sta) : s.setStation i (s.station i) = s := by
  simp [State.setStation, State.station]
@[simp] theorem State.setTwist_station (s : State) (t : Twi) (r : Twist) (j : Sta) : (s.setTwist t r).station j = s.station j := rfl
@[simp] theorem State.setChannel_station (s : State) (c : Chan) (r : Channel) (j : Sta) : (s.setChannel c r).station j = s.station j := rfl
@[simp] theorem State.setPort_station (s : State) (p : Port) (r : PortUnit) (j : Sta) : (s.setPort p r).station j = s.station j := rfl
@[simp] theorem State.setQueue_station (s : State) (p : Port) (q : List Entry) (j : Sta) : (s.setQueue p q).station j = s.station j := rfl
@[simp] theorem State.setLoom_station (s : State) (l : Loom) (r : LoomPos) (j : Sta) : (s.setLoom l r).station j = s.station j := rfl
@[simp] theorem State.setSegment_station (s : State) (i : SegIx) (g : Segment) (j : Sta) : (s.setSegment i g).station j = s.station j := rfl
@[simp] theorem State.setLot_station (s : State) (k : Slot) (o : Option Lot) (j : Sta) : (s.setLot k o).station j = s.station j := rfl
@[simp] theorem State.setBobbins_station (s : State) (bs : List Bobbin) (j : Sta) : (s.setBobbins bs).station j = s.station j := rfl
@[simp] theorem State.setMeter_station (s : State) (m : Meter) (j : Sta) : (s.setMeter m).station j = s.station j := rfl
@[simp] theorem State.setCoiler_station (s : State) (k : Coiler) (j : Sta) : (s.setCoiler k).station j = s.station j := rfl
@[simp] theorem State.setArbor_station (s : State) (id : ArborId) (r : Arbor) (j : Sta) : (s.setArbor id r).station j = s.station j := rfl
@[simp] theorem State.setSettings_station (s : State) (c : Settings) (j : Sta) : (s.setSettings c).station j = s.station j := rfl
@[simp] theorem State.advanceUs_station (s : State) (x : Nat) (j : Sta) : (s.advanceUs x).station j = s.station j := rfl
@[simp] theorem State.advanceMs_station (s : State) (x : Nat) (j : Sta) : (s.advanceMs x).station j = s.station j := rfl

@[simp] theorem State.setStation_twist (s : State) (i : Sta) (r : Station) (j : Twi) : (s.setStation i r).twist j = s.twist j := rfl
@[simp] theorem State.setTwist_twist_self (s : State) (t : Twi) (r : Twist) : (s.setTwist t r).twist t = r := by
  simp [State.setTwist, State.twist]
theorem State.setTwist_twist_ne (s : State) (t : Twi) (r : Twist) (j : Twi) (h : j ≠ t) : (s.setTwist t r).twist j = s.twist j := by
  simp only [State.setTwist, State.twist]
  exact Vector.getElem_set_ne _ _ (fun e => h (Fin.ext e.symm))
theorem State.setTwist_twist (s : State) (t : Twi) (r : Twist) (j : Twi) : (s.setTwist t r).twist j = if j = t then r else s.twist j := by
  by_cases h : j = t
  · subst h; simp
  · simp [h, State.setTwist_twist_ne _ _ _ _ h]
@[simp] theorem State.setTwist_twist_id (s : State) (t : Twi) : s.setTwist t (s.twist t) = s := by
  simp [State.setTwist, State.twist]
@[simp] theorem State.setChannel_twist (s : State) (c : Chan) (r : Channel) (j : Twi) : (s.setChannel c r).twist j = s.twist j := rfl
@[simp] theorem State.setPort_twist (s : State) (p : Port) (r : PortUnit) (j : Twi) : (s.setPort p r).twist j = s.twist j := rfl
@[simp] theorem State.setQueue_twist (s : State) (p : Port) (q : List Entry) (j : Twi) : (s.setQueue p q).twist j = s.twist j := rfl
@[simp] theorem State.setLoom_twist (s : State) (l : Loom) (r : LoomPos) (j : Twi) : (s.setLoom l r).twist j = s.twist j := rfl
@[simp] theorem State.setSegment_twist (s : State) (i : SegIx) (g : Segment) (j : Twi) : (s.setSegment i g).twist j = s.twist j := rfl
@[simp] theorem State.setLot_twist (s : State) (k : Slot) (o : Option Lot) (j : Twi) : (s.setLot k o).twist j = s.twist j := rfl
@[simp] theorem State.setBobbins_twist (s : State) (bs : List Bobbin) (j : Twi) : (s.setBobbins bs).twist j = s.twist j := rfl
@[simp] theorem State.setMeter_twist (s : State) (m : Meter) (j : Twi) : (s.setMeter m).twist j = s.twist j := rfl
@[simp] theorem State.setCoiler_twist (s : State) (k : Coiler) (j : Twi) : (s.setCoiler k).twist j = s.twist j := rfl
@[simp] theorem State.setArbor_twist (s : State) (id : ArborId) (r : Arbor) (j : Twi) : (s.setArbor id r).twist j = s.twist j := rfl
@[simp] theorem State.setSettings_twist (s : State) (c : Settings) (j : Twi) : (s.setSettings c).twist j = s.twist j := rfl
@[simp] theorem State.advanceUs_twist (s : State) (x : Nat) (j : Twi) : (s.advanceUs x).twist j = s.twist j := rfl
@[simp] theorem State.advanceMs_twist (s : State) (x : Nat) (j : Twi) : (s.advanceMs x).twist j = s.twist j := rfl

@[simp] theorem State.setStation_channel (s : State) (i : Sta) (r : Station) (j : Chan) : (s.setStation i r).channel j = s.channel j := rfl
@[simp] theorem State.setTwist_channel (s : State) (t : Twi) (r : Twist) (j : Chan) : (s.setTwist t r).channel j = s.channel j := rfl
@[simp] theorem State.setChannel_channel_self (s : State) (c : Chan) (r : Channel) : (s.setChannel c r).channel c = r := by
  simp [State.setChannel, State.channel]
theorem State.setChannel_channel_ne (s : State) (c : Chan) (r : Channel) (j : Chan) (h : j ≠ c) : (s.setChannel c r).channel j = s.channel j := by
  simp only [State.setChannel, State.channel]
  exact Vector.getElem_set_ne _ _ (fun e => h (Fin.ext e.symm))
theorem State.setChannel_channel (s : State) (c : Chan) (r : Channel) (j : Chan) : (s.setChannel c r).channel j = if j = c then r else s.channel j := by
  by_cases h : j = c
  · subst h; simp
  · simp [h, State.setChannel_channel_ne _ _ _ _ h]
@[simp] theorem State.setChannel_channel_id (s : State) (c : Chan) : s.setChannel c (s.channel c) = s := by
  simp [State.setChannel, State.channel]
@[simp] theorem State.setPort_channel (s : State) (p : Port) (r : PortUnit) (j : Chan) : (s.setPort p r).channel j = s.channel j := rfl
@[simp] theorem State.setQueue_channel (s : State) (p : Port) (q : List Entry) (j : Chan) : (s.setQueue p q).channel j = s.channel j := rfl
@[simp] theorem State.setLoom_channel (s : State) (l : Loom) (r : LoomPos) (j : Chan) : (s.setLoom l r).channel j = s.channel j := rfl
@[simp] theorem State.setSegment_channel (s : State) (i : SegIx) (g : Segment) (j : Chan) : (s.setSegment i g).channel j = s.channel j := rfl
@[simp] theorem State.setLot_channel (s : State) (k : Slot) (o : Option Lot) (j : Chan) : (s.setLot k o).channel j = s.channel j := rfl
@[simp] theorem State.setBobbins_channel (s : State) (bs : List Bobbin) (j : Chan) : (s.setBobbins bs).channel j = s.channel j := rfl
@[simp] theorem State.setMeter_channel (s : State) (m : Meter) (j : Chan) : (s.setMeter m).channel j = s.channel j := rfl
@[simp] theorem State.setCoiler_channel (s : State) (k : Coiler) (j : Chan) : (s.setCoiler k).channel j = s.channel j := rfl
@[simp] theorem State.setArbor_channel (s : State) (id : ArborId) (r : Arbor) (j : Chan) : (s.setArbor id r).channel j = s.channel j := rfl
@[simp] theorem State.setSettings_channel (s : State) (c : Settings) (j : Chan) : (s.setSettings c).channel j = s.channel j := rfl
@[simp] theorem State.advanceUs_channel (s : State) (x : Nat) (j : Chan) : (s.advanceUs x).channel j = s.channel j := rfl
@[simp] theorem State.advanceMs_channel (s : State) (x : Nat) (j : Chan) : (s.advanceMs x).channel j = s.channel j := rfl

@[simp] theorem State.setStation_port (s : State) (i : Sta) (r : Station) (j : Port) : (s.setStation i r).port j = s.port j := rfl
@[simp] theorem State.setTwist_port (s : State) (t : Twi) (r : Twist) (j : Port) : (s.setTwist t r).port j = s.port j := rfl
@[simp] theorem State.setChannel_port (s : State) (c : Chan) (r : Channel) (j : Port) : (s.setChannel c r).port j = s.port j := rfl
@[simp] theorem State.setPort_port_self (s : State) (p : Port) (r : PortUnit) : (s.setPort p r).port p = r := by
  simp [State.setPort, State.port]
theorem State.setPort_port_ne (s : State) (p : Port) (r : PortUnit) (j : Port) (h : j ≠ p) : (s.setPort p r).port j = s.port j := by
  simp only [State.setPort, State.port]
  exact Vector.getElem_set_ne _ _ (fun e => h (Fin.ext e.symm))
theorem State.setPort_port (s : State) (p : Port) (r : PortUnit) (j : Port) : (s.setPort p r).port j = if j = p then r else s.port j := by
  by_cases h : j = p
  · subst h; simp
  · simp [h, State.setPort_port_ne _ _ _ _ h]
@[simp] theorem State.setPort_port_id (s : State) (p : Port) : s.setPort p (s.port p) = s := by
  simp [State.setPort, State.port]
@[simp] theorem State.setQueue_port (s : State) (p : Port) (q : List Entry) (j : Port) : (s.setQueue p q).port j = s.port j := rfl
@[simp] theorem State.setLoom_port (s : State) (l : Loom) (r : LoomPos) (j : Port) : (s.setLoom l r).port j = s.port j := rfl
@[simp] theorem State.setSegment_port (s : State) (i : SegIx) (g : Segment) (j : Port) : (s.setSegment i g).port j = s.port j := rfl
@[simp] theorem State.setLot_port (s : State) (k : Slot) (o : Option Lot) (j : Port) : (s.setLot k o).port j = s.port j := rfl
@[simp] theorem State.setBobbins_port (s : State) (bs : List Bobbin) (j : Port) : (s.setBobbins bs).port j = s.port j := rfl
@[simp] theorem State.setMeter_port (s : State) (m : Meter) (j : Port) : (s.setMeter m).port j = s.port j := rfl
@[simp] theorem State.setCoiler_port (s : State) (k : Coiler) (j : Port) : (s.setCoiler k).port j = s.port j := rfl
@[simp] theorem State.setArbor_port (s : State) (id : ArborId) (r : Arbor) (j : Port) : (s.setArbor id r).port j = s.port j := rfl
@[simp] theorem State.setSettings_port (s : State) (c : Settings) (j : Port) : (s.setSettings c).port j = s.port j := rfl
@[simp] theorem State.advanceUs_port (s : State) (x : Nat) (j : Port) : (s.advanceUs x).port j = s.port j := rfl
@[simp] theorem State.advanceMs_port (s : State) (x : Nat) (j : Port) : (s.advanceMs x).port j = s.port j := rfl

@[simp] theorem State.setStation_queue (s : State) (i : Sta) (r : Station) (j : Port) : (s.setStation i r).queue j = s.queue j := rfl
@[simp] theorem State.setTwist_queue (s : State) (t : Twi) (r : Twist) (j : Port) : (s.setTwist t r).queue j = s.queue j := rfl
@[simp] theorem State.setChannel_queue (s : State) (c : Chan) (r : Channel) (j : Port) : (s.setChannel c r).queue j = s.queue j := rfl
@[simp] theorem State.setPort_queue (s : State) (p : Port) (r : PortUnit) (j : Port) : (s.setPort p r).queue j = s.queue j := rfl
@[simp] theorem State.setQueue_queue_self (s : State) (p : Port) (q : List Entry) : (s.setQueue p q).queue p = q := by
  simp [State.setQueue, State.queue]
theorem State.setQueue_queue_ne (s : State) (p : Port) (q : List Entry) (j : Port) (h : j ≠ p) : (s.setQueue p q).queue j = s.queue j := by
  simp only [State.setQueue, State.queue]
  exact Vector.getElem_set_ne _ _ (fun e => h (Fin.ext e.symm))
theorem State.setQueue_queue (s : State) (p : Port) (q : List Entry) (j : Port) : (s.setQueue p q).queue j = if j = p then q else s.queue j := by
  by_cases h : j = p
  · subst h; simp
  · simp [h, State.setQueue_queue_ne _ _ _ _ h]
@[simp] theorem State.setQueue_queue_id (s : State) (p : Port) : s.setQueue p (s.queue p) = s := by
  simp [State.setQueue, State.queue]
@[simp] theorem State.setLoom_queue (s : State) (l : Loom) (r : LoomPos) (j : Port) : (s.setLoom l r).queue j = s.queue j := rfl
@[simp] theorem State.setSegment_queue (s : State) (i : SegIx) (g : Segment) (j : Port) : (s.setSegment i g).queue j = s.queue j := rfl
@[simp] theorem State.setLot_queue (s : State) (k : Slot) (o : Option Lot) (j : Port) : (s.setLot k o).queue j = s.queue j := rfl
@[simp] theorem State.setBobbins_queue (s : State) (bs : List Bobbin) (j : Port) : (s.setBobbins bs).queue j = s.queue j := rfl
@[simp] theorem State.setMeter_queue (s : State) (m : Meter) (j : Port) : (s.setMeter m).queue j = s.queue j := rfl
@[simp] theorem State.setCoiler_queue (s : State) (k : Coiler) (j : Port) : (s.setCoiler k).queue j = s.queue j := rfl
@[simp] theorem State.setArbor_queue (s : State) (id : ArborId) (r : Arbor) (j : Port) : (s.setArbor id r).queue j = s.queue j := rfl
@[simp] theorem State.setSettings_queue (s : State) (c : Settings) (j : Port) : (s.setSettings c).queue j = s.queue j := rfl
@[simp] theorem State.advanceUs_queue (s : State) (x : Nat) (j : Port) : (s.advanceUs x).queue j = s.queue j := rfl
@[simp] theorem State.advanceMs_queue (s : State) (x : Nat) (j : Port) : (s.advanceMs x).queue j = s.queue j := rfl

@[simp] theorem State.setStation_loom (s : State) (i : Sta) (r : Station) (j : Loom) : (s.setStation i r).loom j = s.loom j := rfl
@[simp] theorem State.setTwist_loom (s : State) (t : Twi) (r : Twist) (j : Loom) : (s.setTwist t r).loom j = s.loom j := rfl
@[simp] theorem State.setChannel_loom (s : State) (c : Chan) (r : Channel) (j : Loom) : (s.setChannel c r).loom j = s.loom j := rfl
@[simp] theorem State.setPort_loom (s : State) (p : Port) (r : PortUnit) (j : Loom) : (s.setPort p r).loom j = s.loom j := rfl
@[simp] theorem State.setQueue_loom (s : State) (p : Port) (q : List Entry) (j : Loom) : (s.setQueue p q).loom j = s.loom j := rfl
@[simp] theorem State.setLoom_loom_self (s : State) (l : Loom) (r : LoomPos) : (s.setLoom l r).loom l = r := by
  simp [State.setLoom, State.loom]
theorem State.setLoom_loom_ne (s : State) (l : Loom) (r : LoomPos) (j : Loom) (h : j ≠ l) : (s.setLoom l r).loom j = s.loom j := by
  simp only [State.setLoom, State.loom]
  exact Vector.getElem_set_ne _ _ (fun e => h (Fin.ext e.symm))
theorem State.setLoom_loom (s : State) (l : Loom) (r : LoomPos) (j : Loom) : (s.setLoom l r).loom j = if j = l then r else s.loom j := by
  by_cases h : j = l
  · subst h; simp
  · simp [h, State.setLoom_loom_ne _ _ _ _ h]
@[simp] theorem State.setLoom_loom_id (s : State) (l : Loom) : s.setLoom l (s.loom l) = s := by
  simp [State.setLoom, State.loom]
@[simp] theorem State.setSegment_loom (s : State) (i : SegIx) (g : Segment) (j : Loom) : (s.setSegment i g).loom j = s.loom j := rfl
@[simp] theorem State.setLot_loom (s : State) (k : Slot) (o : Option Lot) (j : Loom) : (s.setLot k o).loom j = s.loom j := rfl
@[simp] theorem State.setBobbins_loom (s : State) (bs : List Bobbin) (j : Loom) : (s.setBobbins bs).loom j = s.loom j := rfl
@[simp] theorem State.setMeter_loom (s : State) (m : Meter) (j : Loom) : (s.setMeter m).loom j = s.loom j := rfl
@[simp] theorem State.setCoiler_loom (s : State) (k : Coiler) (j : Loom) : (s.setCoiler k).loom j = s.loom j := rfl
@[simp] theorem State.setArbor_loom (s : State) (id : ArborId) (r : Arbor) (j : Loom) : (s.setArbor id r).loom j = s.loom j := rfl
@[simp] theorem State.setSettings_loom (s : State) (c : Settings) (j : Loom) : (s.setSettings c).loom j = s.loom j := rfl
@[simp] theorem State.advanceUs_loom (s : State) (x : Nat) (j : Loom) : (s.advanceUs x).loom j = s.loom j := rfl
@[simp] theorem State.advanceMs_loom (s : State) (x : Nat) (j : Loom) : (s.advanceMs x).loom j = s.loom j := rfl

@[simp] theorem State.setStation_segment (s : State) (i : Sta) (r : Station) (j : SegIx) : (s.setStation i r).segment j = s.segment j := rfl
@[simp] theorem State.setTwist_segment (s : State) (t : Twi) (r : Twist) (j : SegIx) : (s.setTwist t r).segment j = s.segment j := rfl
@[simp] theorem State.setChannel_segment (s : State) (c : Chan) (r : Channel) (j : SegIx) : (s.setChannel c r).segment j = s.segment j := rfl
@[simp] theorem State.setPort_segment (s : State) (p : Port) (r : PortUnit) (j : SegIx) : (s.setPort p r).segment j = s.segment j := rfl
@[simp] theorem State.setQueue_segment (s : State) (p : Port) (q : List Entry) (j : SegIx) : (s.setQueue p q).segment j = s.segment j := rfl
@[simp] theorem State.setLoom_segment (s : State) (l : Loom) (r : LoomPos) (j : SegIx) : (s.setLoom l r).segment j = s.segment j := rfl
@[simp] theorem State.setSegment_segment_self (s : State) (i : SegIx) (g : Segment) : (s.setSegment i g).segment i = g := by
  simp [State.setSegment, State.segment]
theorem State.setSegment_segment_ne (s : State) (i : SegIx) (g : Segment) (j : SegIx) (h : j ≠ i) : (s.setSegment i g).segment j = s.segment j := by
  simp only [State.setSegment, State.segment]
  exact Vector.getElem_set_ne _ _ (fun e => h (Fin.ext e.symm))
theorem State.setSegment_segment (s : State) (i : SegIx) (g : Segment) (j : SegIx) : (s.setSegment i g).segment j = if j = i then g else s.segment j := by
  by_cases h : j = i
  · subst h; simp
  · simp [h, State.setSegment_segment_ne _ _ _ _ h]
@[simp] theorem State.setSegment_segment_id (s : State) (i : SegIx) : s.setSegment i (s.segment i) = s := by
  simp [State.setSegment, State.segment]
@[simp] theorem State.setLot_segment (s : State) (k : Slot) (o : Option Lot) (j : SegIx) : (s.setLot k o).segment j = s.segment j := rfl
@[simp] theorem State.setBobbins_segment (s : State) (bs : List Bobbin) (j : SegIx) : (s.setBobbins bs).segment j = s.segment j := rfl
@[simp] theorem State.setMeter_segment (s : State) (m : Meter) (j : SegIx) : (s.setMeter m).segment j = s.segment j := rfl
@[simp] theorem State.setCoiler_segment (s : State) (k : Coiler) (j : SegIx) : (s.setCoiler k).segment j = s.segment j := rfl
@[simp] theorem State.setArbor_segment (s : State) (id : ArborId) (r : Arbor) (j : SegIx) : (s.setArbor id r).segment j = s.segment j := rfl
@[simp] theorem State.setSettings_segment (s : State) (c : Settings) (j : SegIx) : (s.setSettings c).segment j = s.segment j := rfl
@[simp] theorem State.advanceUs_segment (s : State) (x : Nat) (j : SegIx) : (s.advanceUs x).segment j = s.segment j := rfl
@[simp] theorem State.advanceMs_segment (s : State) (x : Nat) (j : SegIx) : (s.advanceMs x).segment j = s.segment j := rfl

/-! ### Clocks -/

@[simp] theorem State.nowMs_eq (s : State) : s.nowMs = s.now / 1000 := rfl

@[simp] theorem State.worksClock_eq (s : State) : s.worksClock = BitVec.ofNat 32 (s.now / 1000) := rfl

end Sys2Proof.Machine
end

