-- ==== Sys2Proof/Laws/Ops.lean ====
section
/-! SUPPORT. What each shared operation can do, said once: the frames of notices, of moves of stations and of the lot
table's counts, as relations that compose. -/

namespace Sys2Proof.Laws

open Sys2Proof.Machine

/-! ## Notices: the queues, and NOTICE_OVF of the ports -/

/-- `t` differs from `s` in the notice queues and in NOTICE_OVF of the ports alone. -/
def NoticeFrame (s t : State) : Prop :=
  t = { s with ports := t.ports, queues := t.queues } ∧ ∀ p, ∃ ovf, t.port p = { s.port p with noticeOvf := ovf }

theorem NoticeFrame.refl (s : State) : NoticeFrame s s := ⟨rfl, fun p => ⟨(s.port p).noticeOvf, rfl⟩⟩

theorem NoticeFrame.trans {s t u : State} (h : NoticeFrame s t) (k : NoticeFrame t u) : NoticeFrame s u := by
  refine ⟨?_, fun p => ?_⟩
  · have e := k.1
    rw [h.1] at e
    exact e
  · obtain ⟨o, ho⟩ := h.2 p
    obtain ⟨o', ho'⟩ := k.2 p
    exact ⟨o', by rw [ho', ho]⟩

theorem offer_frame (p : Port) (cls : NoticeClass) (sub : Subject) (d : BitVec 16) (s : State) :
    NoticeFrame s (offer p cls sub d s) := by
  unfold offer
  split
  · exact ⟨rfl, fun q => ⟨(s.port q).noticeOvf, rfl⟩⟩
  · refine ⟨rfl, fun q => ?_⟩
    rw [State.setPort_port]
    split
    · next h => exact ⟨true, by rw [h]⟩
    · exact ⟨(s.port q).noticeOvf, rfl⟩

/-- A fold of steps that each keep a frame keeps it. -/
theorem foldl_frame {α : Type} {F : State → State → Prop} (refl : ∀ s, F s s)
    (trans : ∀ {s t u}, F s t → F t u → F s u) (f : State → α → State) (h : ∀ s a, F s (f s a)) (xs : List α) :
    ∀ s, F s (xs.foldl f s) := by
  induction xs with
  | nil => exact refl
  | cons a xs ih => exact fun s => trans (h s a) (ih (f s a))

theorem offerAll_frame (ps : BitSet 4) (cls : NoticeClass) (sub : Subject) (d : BitVec 16) (s : State) :
    NoticeFrame s (offerAll ps cls sub d s) := by
  refine foldl_frame (F := NoticeFrame) NoticeFrame.refl NoticeFrame.trans _ (fun s p => ?_) allPorts s
  split
  · exact offer_frame ..
  · exact NoticeFrame.refl s

/-- A notice changes the queues and NOTICE_OVF of the ports, and nothing else. -/
theorem raise_frame (cls : NoticeClass) (sub : Subject) (d : BitVec 16) (s : State) :
    NoticeFrame s (raise cls sub d s) := offerAll_frame ..

theorem warn_frame (w : Warning) (cls : NoticeClass) (sub : Subject) (d : BitVec 16) (s : State) :
    NoticeFrame s (warn w cls sub d s) := by
  unfold warn
  split
  · exact NoticeFrame.refl s
  · exact raise_frame ..

namespace NoticeFrame

variable {s t : State} (h : NoticeFrame s t)
include h

theorem station (i : Sta) : t.station i = s.station i := by rw [h.1]; rfl
theorem twist (k : Twi) : t.twist k = s.twist k := by rw [h.1]; rfl
theorem loom (l : Loom) : t.loom l = s.loom l := by rw [h.1]; rfl
theorem lots : t.lots = s.lots := by rw [h.1]
theorem bobbins : t.bobbins = s.bobbins := by rw [h.1]
theorem coiler : t.coiler = s.coiler := by rw [h.1]
theorem settings : t.settings = s.settings := by rw [h.1]
theorem now : t.now = s.now := by rw [h.1]
theorem power : t.power = s.power := by rw [h.1]
theorem image : t.image = s.image := by rw [h.1]

end NoticeFrame

/-! ## Moves of stations: the station records, the twisting stations, and notices -/

/-- `t` differs from `s` in the station records (not in bindings and lots), in the twisting stations (not in their
run-length accumulators), and in notices. -/
def MoveFrame (s t : State) : Prop :=
  t = { s with stations := t.stations, twists := t.twists, ports := t.ports, queues := t.queues } ∧
    (∀ p, ∃ ovf, t.port p = { s.port p with noticeOvf := ovf }) ∧
    (∀ i, (t.station i).bound = (s.station i).bound ∧ (t.station i).lot = (s.station i).lot) ∧
    ∀ k, (t.twist k).acc = (s.twist k).acc

theorem MoveFrame.refl (s : State) : MoveFrame s s :=
  ⟨rfl, fun p => ⟨(s.port p).noticeOvf, rfl⟩, fun _ => ⟨rfl, rfl⟩, fun _ => rfl⟩

theorem MoveFrame.trans {s t u : State} (h : MoveFrame s t) (k : MoveFrame t u) : MoveFrame s u := by
  refine ⟨?_, fun p => ?_, fun i => ?_, fun i => ?_⟩
  · have e := k.1
    rw [h.1] at e
    exact e
  · obtain ⟨o, ho⟩ := h.2.1 p
    obtain ⟨o', ho'⟩ := k.2.1 p
    exact ⟨o', by rw [ho', ho]⟩
  · exact ⟨(k.2.2.1 i).1.trans (h.2.2.1 i).1, (k.2.2.1 i).2.trans (h.2.2.1 i).2⟩
  · exact (k.2.2.2 i).trans (h.2.2.2 i)

theorem MoveFrame.ofNotice {s t : State} (h : NoticeFrame s t) : MoveFrame s t := by
  refine ⟨?_, h.2, fun i => ?_, fun k => ?_⟩
  · have e := h.1
    rw [e]
  · rw [h.station i]; exact ⟨rfl, rfl⟩
  · rw [h.twist k]

/-- Writing a station's record with its binding and lot kept is a move. -/
theorem setStation_move (i : Sta) (r : Station) (s : State) (hb : r.bound = (s.station i).bound)
    (hl : r.lot = (s.station i).lot) : MoveFrame s (s.setStation i r) := by
  refine ⟨rfl, fun p => ⟨(s.port p).noticeOvf, rfl⟩, fun j => ?_, fun _ => rfl⟩
  rw [State.setStation_station]
  split
  · next h => subst h; exact ⟨hb, hl⟩
  · exact ⟨rfl, rfl⟩

/-- Writing a twisting station with its accumulator kept is a move. -/
theorem setTwist_move (t : Twi) (w : Twist) (s : State) (h : w.acc = (s.twist t).acc) : MoveFrame s (s.setTwist t w) := by
  refine ⟨rfl, fun p => ⟨(s.port p).noticeOvf, rfl⟩, fun _ => ⟨rfl, rfl⟩, fun k => ?_⟩
  rw [State.setTwist_twist]
  split
  · next e => subst e; exact h
  · rfl

theorem changeState_move (i : Sta) (st : RunState) (d : BitVec 16) (s : State) : MoveFrame s (changeState i st d s) := by
  unfold changeState
  split
  · exact MoveFrame.refl s
  · refine MoveFrame.trans ?_ (.ofNotice (raise_frame ..))
    exact setStation_move _ _ _ rfl rfl

theorem moveTo_move (i : Sta) (st : RunState) (s : State) : MoveFrame s (moveTo i st s) := changeState_move ..

theorem enterRunDown_move (t : Twi) (s : State) : MoveFrame s (enterRunDown t s) := by
  unfold enterRunDown
  refine MoveFrame.trans ?_ (moveTo_move ..)
  exact setTwist_move _ _ _ rfl

theorem haltAtOnce_move (t : Twi) (s : State) : MoveFrame s (haltAtOnce t s) := by
  unfold haltAtOnce
  dsimp only
  split
  · refine MoveFrame.trans ?_ (moveTo_move ..)
    exact setTwist_move _ _ _ rfl
  · exact MoveFrame.refl s

theorem haltMove_move (i : Sta) (s : State) : MoveFrame s (haltMove i s) := by
  unfold haltMove
  split
  · exact moveTo_move ..
  · exact moveTo_move ..
  · exact moveTo_move ..
  · exact moveTo_move ..
  · split
    · exact enterRunDown_move ..
    · exact MoveFrame.refl s
  · split
    · exact enterRunDown_move ..
    · exact MoveFrame.refl s
  all_goals exact MoveFrame.refl s

theorem addCause_move (i : Sta) (c : Cause) (s : State) : MoveFrame s (addCause i c s) := setStation_move i _ s rfl rfl

theorem raiseOne_move (i : Sta) (c : Cause) (s : State) : MoveFrame s (raiseOne i c s) := by
  unfold raiseOne
  split
  · exact MoveFrame.refl s
  · exact ((addCause_move i c s).trans (.ofNotice (raise_frame ..))).trans (haltMove_move ..)

/-- The raise of a cause moves stations and raises notices, and does nothing else. -/
theorem raiseCause_move (i : Sta) (c : Cause) (s : State) : MoveFrame s (raiseCause i c s) := by
  unfold raiseCause
  refine (raiseOne_move i c s).trans ?_
  unfold coilerHalted
  split
  · exact raiseOne_move ..
  · exact MoveFrame.refl _

theorem dropCause_move (i : Sta) (c : Cause) (s : State) : MoveFrame s (dropCause i c s) := by
  unfold dropCause
  split
  · exact setStation_move i _ s rfl rfl
  · exact MoveFrame.refl s

theorem settleOne_move (i : Sta) (s : State) : MoveFrame s (settleOne i s) := by
  unfold settleOne
  split
  · exact moveTo_move ..
  · exact MoveFrame.refl s

/-- The movement of R7 moves stations and raises notices, and does nothing else. -/
theorem settle_move (i : Sta) (s : State) : MoveFrame s (settle i s) := by
  unfold settle
  refine (settleOne_move i s).trans ?_
  unfold coilerReleased
  split
  · exact (dropCause_move ..).trans (settleOne_move ..)
  · exact MoveFrame.refl _

/-- The removal of a cause moves stations and raises notices, and does nothing else. -/
theorem removeCause_move (i : Sta) (c : Cause) (s : State) : MoveFrame s (removeCause i c s) := by
  unfold removeCause
  split
  · exact (dropCause_move ..).trans (settle_move ..)
  · exact MoveFrame.refl s

theorem raiseOnAll_move (set : BitSet 8) (c : Cause) (s : State) : MoveFrame s (raiseOnAll set c s) := by
  refine foldl_frame (F := MoveFrame) MoveFrame.refl MoveFrame.trans _ (fun s i => ?_) allStations s
  split
  · exact raiseCause_move ..
  · exact MoveFrame.refl s

theorem removeFromAll_move (set : BitSet 8) (c : Cause) (s : State) : MoveFrame s (removeFromAll set c s) := by
  refine foldl_frame (F := MoveFrame) MoveFrame.refl MoveFrame.trans _ (fun s i => ?_) allStations s
  split
  · exact removeCause_move ..
  · exact MoveFrame.refl s

namespace MoveFrame

variable {s t : State} (h : MoveFrame s t)
include h

theorem bound (i : Sta) : (t.station i).bound = (s.station i).bound := (h.2.2.1 i).1
theorem lot (i : Sta) : (t.station i).lot = (s.station i).lot := (h.2.2.1 i).2
theorem loom (l : Loom) : t.loom l = s.loom l := by rw [h.1]; rfl
theorem lots : t.lots = s.lots := by rw [h.1]
theorem bobbins : t.bobbins = s.bobbins := by rw [h.1]
theorem coiler : t.coiler = s.coiler := by rw [h.1]
theorem settings : t.settings = s.settings := by rw [h.1]
theorem now : t.now = s.now := by rw [h.1]
theorem power : t.power = s.power := by rw [h.1]
theorem image : t.image = s.image := by rw [h.1]

end MoveFrame

/-! ## What a move does to the stations -/

/-- A change of state writes the state and nothing else of the station's record. -/
theorem changeState_station (i : Sta) (st : RunState) (d : BitVec 16) (s : State) :
    (changeState i st d s).station i = { s.station i with state := st } := by
  unfold changeState
  split
  · next h => rw [← h]
  · rw [(raise_frame ..).station]; simp

/-- A change of state leaves every other station as it was. -/
theorem changeState_station_ne (i j : Sta) (st : RunState) (d : BitVec 16) (s : State) (h : j ≠ i) :
    (changeState i st d s).station j = s.station j := by
  unfold changeState
  split
  · rfl
  · rw [(raise_frame ..).station, State.setStation_station_ne _ _ _ _ h]

theorem moveTo_station (i : Sta) (st : RunState) (s : State) :
    (moveTo i st s).station i = { s.station i with state := st } := changeState_station ..

theorem moveTo_station_ne (i j : Sta) (st : RunState) (s : State) (h : j ≠ i) :
    (moveTo i st s).station j = s.station j := changeState_station_ne _ _ _ _ _ h

/-- A change of state leaves every twisting station's own fields as they were. -/
theorem changeState_twist (i : Sta) (st : RunState) (d : BitVec 16) (s : State) (k : Twi) :
    (changeState i st d s).twist k = s.twist k := by
  unfold changeState
  split
  · rfl
  · rw [(raise_frame ..).twist]; rfl

theorem moveTo_twist (i : Sta) (st : RunState) (s : State) (k : Twi) : (moveTo i st s).twist k = s.twist k :=
  changeState_twist ..

/-- The state a station of a kind goes to when a cause is added (R5, R6). -/
def afterRaise (i : Sta) (st : RunState) : RunState :=
  match st with
  | .idle | .standby | .knotting | .active => .halted
  | .runUp | .steady => if (twistOf i).isSome then .runDown else st
  | .runDown | .halted | .rowHold => st

theorem twiSta_of_twistOf {i : Sta} {t : Twi} (h : twistOf i = some t) : twiSta t = i := by
  unfold twistOf at h
  split at h
  · cases h; rfl
  · cases h

theorem twistOf_twiSta (t : Twi) : twistOf (twiSta t) = some t := by
  unfold twistOf twiSta
  rw [dif_pos t.isLt]

/-- The entry into RUN_DOWN on the station's record (R68). -/
theorem enterRunDown_station (t : Twi) (s : State) :
    (enterRunDown t s).station (twiSta t) = { s.station (twiSta t) with state := .runDown } := by
  unfold enterRunDown
  exact moveTo_station ..

theorem Station.eta_state {r : Station} {st : RunState} (h : r.state = st) : r = { r with state := st } := by
  cases h; rfl

/-- Where an added cause takes a station, R5 and R6 in one line. -/
theorem haltMove_station (i : Sta) (s : State) :
    (haltMove i s).station i = { s.station i with state := afterRaise i (s.station i).state } := by
  suffices key : ∀ st, (s.station i).state = st →
      (haltMove i s).station i = { s.station i with state := afterRaise i st } from key _ rfl
  intro st e
  unfold haltMove
  rw [e]
  cases st
  case idle | standby | knotting | active => exact moveTo_station ..
  case runUp | steady =>
    cases h : twistOf i with
    | none =>
      simp only [afterRaise, h]
      exact Station.eta_state e
    | some t =>
      simp only [afterRaise, h]
      rw [← twiSta_of_twistOf h]
      exact enterRunDown_station t s
  case runDown | halted | rowHold => exact Station.eta_state e

theorem haltMove_station_ne (i j : Sta) (s : State) (h : j ≠ i) : (haltMove i s).station j = s.station j := by
  unfold haltMove
  split
  · exact moveTo_station_ne _ _ _ _ h
  · exact moveTo_station_ne _ _ _ _ h
  · exact moveTo_station_ne _ _ _ _ h
  · exact moveTo_station_ne _ _ _ _ h
  · split
    · next e =>
      rw [enterRunDown]
      exact moveTo_station_ne _ _ _ _ (by rw [twiSta_of_twistOf e]; exact h)
    · rfl
  · split
    · next e =>
      rw [enterRunDown]
      exact moveTo_station_ne _ _ _ _ (by rw [twiSta_of_twistOf e]; exact h)
    · rfl
  all_goals rfl

/-- The raise of an admissible cause that was not present adds it to the set and moves the station (R2, R5, R6, R12). -/
theorem raiseOne_station (i : Sta) (c : Cause) (s : State) (ha : c.admissible (kindOf i) = true)
    (hn : s.has i c = false) :
    (raiseOne i c s).station i =
      { s.station i with
        causes := (s.station i).causes.add c.idx
        state := afterRaise i (s.station i).state
        retryUntilMs :=
          if c = .laySevere then s.settings.retryWait.ms.map (s.nowMs + ·) else (s.station i).retryUntilMs } := by
  unfold raiseOne
  rw [if_neg (by simp [ha, hn]), haltMove_station, (raise_frame ..).station]
  simp [addCause]

/-- The raise of a cause that is not admissible, or that is present, changes nothing (R2). -/
theorem raiseCause_idle (i : Sta) (c : Cause) (s : State) (h : c.admissible (kindOf i) = false ∨ s.has i c = true) :
    raiseCause i c s = s := by
  have e : raiseOne i c s = s := by unfold raiseOne; rw [if_pos h]
  unfold raiseCause coilerHalted
  rw [e, if_neg (by simp +contextual)]

theorem raiseOne_station_ne (i j : Sta) (c : Cause) (s : State) (h : j ≠ i) :
    (raiseOne i c s).station j = s.station j := by
  unfold raiseOne
  split
  · rfl
  · rw [haltMove_station_ne _ _ _ h, (raise_frame ..).station]
    exact State.setStation_station_ne _ _ _ _ h

/-- Off K0, the raise of a cause touches its own station alone. -/
theorem raiseCause_eq_raiseOne (i : Sta) (c : Cause) (s : State) (h : i ≠ staK0) : raiseCause i c s = raiseOne i c s := by
  unfold raiseCause coilerHalted
  rw [if_neg]
  rw [raiseOne_station_ne _ _ _ _ (Ne.symm h)]
  tauto

/-- A cause taken out of a set (R3, R12). -/
theorem dropCause_station (i : Sta) (c : Cause) (s : State) (h : s.has i c = true) :
    (dropCause i c s).station i =
      { s.station i with
        causes := (s.station i).causes.del c.idx
        retryUntilMs := if c = .laySevere then none else (s.station i).retryUntilMs } := by
  unfold dropCause
  rw [if_pos h]; simp

theorem dropCause_station_ne (i j : Sta) (c : Cause) (s : State) (h : j ≠ i) :
    (dropCause i c s).station j = s.station j := by
  unfold dropCause
  split
  · exact State.setStation_station_ne _ _ _ _ h
  · rfl

theorem dropCause_twist (i : Sta) (c : Cause) (s : State) (k : Twi) : (dropCause i c s).twist k = s.twist k := by
  unfold dropCause
  split <;> rfl

/-- The movement of R7 on a station's own record. -/
theorem settleOne_station (i : Sta) (s : State) :
    (settleOne i s).station i =
      if (s.station i).causes = 0 ∧ (s.station i).state = .halted then { s.station i with state := restState i s }
      else s.station i := by
  unfold settleOne
  split
  · exact moveTo_station ..
  · rfl

theorem settleOne_station_ne (i j : Sta) (s : State) (h : j ≠ i) : (settleOne i s).station j = s.station j := by
  unfold settleOne
  split
  · exact moveTo_station_ne _ _ _ _ h
  · rfl

theorem settleOne_twist (i : Sta) (s : State) (k : Twi) : (settleOne i s).twist k = s.twist k := by
  unfold settleOne
  split
  · exact moveTo_twist ..
  · rfl

/-- Off K0, the movement of R7 touches its own station alone. -/
theorem settle_eq_settleOne (i : Sta) (s : State) (h : i ≠ staK0) : settle i s = settleOne i s := by
  unfold settle coilerReleased
  rw [if_neg]
  rw [settleOne_station_ne _ _ _ (Ne.symm h)]
  tauto

theorem settle_twist (i : Sta) (s : State) (k : Twi) : (settle i s).twist k = s.twist k := by
  unfold settle coilerReleased
  split
  · rw [settleOne_twist, dropCause_twist, settleOne_twist]
  · exact settleOne_twist ..

/-! ## The lot table -/

/-- Changing a lot's record changes the lot table alone. -/
theorem modLot_frame (n : Nat) (f : Lot → Lot) (s : State) : modLot n f s = { s with lots := (modLot n f s).lots } := by
  unfold modLot
  split <;> rfl

/-- `t` differs from `s` in the lot table, in moves of stations and in notices. -/
def LotFrame (s t : State) : Prop := MoveFrame { s with lots := t.lots } t

theorem LotFrame.refl (s : State) : LotFrame s s := MoveFrame.refl s

theorem LotFrame.trans {s t u : State} (h : LotFrame s t) (k : LotFrame t u) : LotFrame s u := by
  have h' : MoveFrame { s with lots := u.lots } { t with lots := u.lots } := by
    refine ⟨?_, h.2.1, h.2.2.1, h.2.2.2⟩
    have e := congrArg (fun x : State => { x with lots := u.lots }) h.1
    exact e
  exact h'.trans k

theorem LotFrame.ofMove {s t : State} (h : MoveFrame s t) : LotFrame s t := by
  have e := h.lots
  unfold LotFrame
  rw [e]
  exact h

theorem modLot_lotFrame (n : Nat) (f : Lot → Lot) (s : State) : LotFrame s (modLot n f s) := by
  unfold modLot
  split
  · exact MoveFrame.refl _
  · exact LotFrame.refl s

theorem moveLot_frame (n : Nat) (st : LotState) (s : State) : LotFrame s (moveLot n st s) :=
  (modLot_lotFrame n _ s).trans (.ofMove (.ofNotice (raise_frame ..)))

theorem checkComplete_frame (n : Nat) (s : State) : LotFrame s (checkComplete n s) := by
  unfold checkComplete
  split
  · split
    · exact (moveLot_frame ..).trans (.ofMove (raiseOnAll_move ..))
    · exact LotFrame.refl s
  · exact LotFrame.refl s

/-- A done increment changes the lot table, moves stations and raises notices, and does nothing else. -/
theorem countDone_frame (n : Nat) (s : State) : LotFrame s (countDone n s) :=
  (modLot_lotFrame n _ s).trans (checkComplete_frame ..)

/-! ## Requests and their answers -/

/-- The arrival of a valid frame on a LIVE port sets the last valid time alone (R169). -/
theorem validArrival_live (p : Port) (s : State) (h : (s.port p).live = true) :
    validArrival p s = s.setPort p { s.port p with lastValidMs := s.nowMs } := by
  unfold validArrival
  simp [h]

/-- The arrival of a valid frame: the port LIVE with its last valid time, and at most a notice (R169, R170). -/
theorem validArrival_frame (p : Port) (s : State) :
    NoticeFrame (s.setPort p { s.port p with live := true, lastValidMs := s.nowMs }) (validArrival p s) := by
  unfold validArrival
  dsimp only
  split
  · exact NoticeFrame.refl _
  · exact raise_frame ..

/-- A request that a listening port receives is taken at once (R162). -/
theorem requestArrives_taken (p : Port) (r : Request) (s : State) (h : Safety.Listens p s)
    (hl : r.payload.length ≤ Config.maxPayload) :
    requestArrives p r s = answerWith p r.kind (checked p r (validArrival p s)) := by
  have hf := (validArrival_frame p s).2 p
  obtain ⟨o, ho⟩ := hf
  have ha : ((validArrival p s).port p).answer = none := by rw [ho]; simp [h.2]
  unfold requestArrives whenRunning arrive
  rw [if_pos h.1]
  dsimp only
  rw [if_neg (Nat.not_lt.mpr hl), ha]
  rfl

/-- A station-control request of a port that steers its station reaches its owner (R165). -/
theorem checked_owner (p : Port) (r : Request) (s : State) (b : Byte) (hl : r.lengthOk = true)
    (hc : r.control = some b) (hb : bindingOk p r b s = true) : checked p r s = owner p r s := by
  unfold checked
  rw [if_neg (by simp [hl]), hc]
  simp [hb]

/-- A request that is not station-control reaches its owner (R165). -/
theorem checked_free (p : Port) (r : Request) (s : State) (hl : r.lengthOk = true) (hc : r.control = none) :
    checked p r s = owner p r s := by
  unfold checked
  rw [if_neg (by simp [hl]), hc]

/-- An answer is built after the request's effects, on its port alone (R163). -/
theorem answerWith_frame (p : Port) (kind : Byte) (r : Served) :
    answerWith p kind r = { r.1 with ports := (answerWith p kind r).ports } := rfl

theorem answerWith_port_ne (p q : Port) (kind : Byte) (r : Served) (h : q ≠ p) :
    (answerWith p kind r).port q = r.1.port q := State.setPort_port_ne _ _ _ _ h

/-! ## Elapsed time and silence (00_scope.md, Time; R169, R171) -/

/-- Below 2^32 ms the elapsed time is the plain difference. -/
theorem elapsedMs_of_lt {since now : Nat} (h : now - since < 2 ^ 32) : elapsedMs since now = now - since :=
  Nat.mod_eq_of_lt h

@[simp] theorem elapsedMs_self (t : Nat) : elapsedMs t t = 0 := by rw [elapsedMs, Nat.sub_self, Nat.zero_mod]

/-- What is left of a silence period: only a LIVE port with a period has any. -/
theorem silenceLeftMs_eq_some {p : Port} {s : State} {left : Nat} :
    silenceLeftMs p s = some left ↔
      (s.port p).live = true ∧
        ∃ ms, (s.settings.silence[p]).ms = some ms ∧ left = ms - elapsedMs (s.port p).lastValidMs s.nowMs := by
  unfold silenceLeftMs
  by_cases h : (s.port p).live = true
  · rw [if_pos h, Option.map_eq_some_iff]
    exact ⟨fun ⟨ms, e, e'⟩ => ⟨h, ms, e, e'.symm⟩, fun ⟨_, ms, e, e'⟩ => ⟨ms, e, e'.symm⟩⟩
  · rw [if_neg h]
    exact ⟨fun e => absurd e (by simp), fun e => absurd e.1 h⟩

/-- A port is overdue exactly when it is LIVE and its period has elapsed. -/
theorem silenceOverdue_iff {p : Port} {s : State} :
    silenceOverdue p s = true ↔
      (s.port p).live = true ∧
        ∃ ms, (s.settings.silence[p]).ms = some ms ∧ ms ≤ elapsedMs (s.port p).lastValidMs s.nowMs := by
  unfold silenceOverdue
  rw [beq_iff_eq, silenceLeftMs_eq_some]
  refine and_congr_right fun _ => exists_congr fun ms => and_congr_right fun _ => ?_
  rw [eq_comm, Nat.sub_eq_zero_iff_le]

end Sys2Proof.Laws
end

