-- ==== Sys2Proof/Tests/Slice0.lean ====
section
/-! SUPPORT. Tests: ill-formed commands are refused, every statement that has hypotheses has a state that meets them, and the
spec's worked cases. -/

set_option maxRecDepth 10000

namespace Sys2Proof.Tests

open Sys2Proof Sys2Proof.Machine Sys2Proof.Safety

/-! ## Small states -/

/-- Every station bound to P0, without a lot. -/
def bound : State := { State.reset with stations := .replicate 8 { Station.cold with bound := some 0 } }

/-- A STRAND lot 7, a ROPE lot 8 and a NET lot 9, each with work started. -/
def strand7 : Lot :=
  { Lot.fresh 7 (.strand { dir := .s, lay := 1150, tol := 25, turns := 20, fill := 2, ordered := 3 }) with
    state := .active, stations := 0x01, started := 1 }
def rope8 : Lot :=
  { Lot.fresh 8 (.rope { RopeLot.fresh with
      dir := .z, strandLot := 7, takeUp := 1085, coilLen := 2, ordered := 2, slow := 500, mark := 1, slip := 10 }) with
    state := .active, stations := 0x90, started := 1 }
def net9 : Lot :=
  { Lot.fresh 9 (.net { NetLot.fresh with
      strandLot := 7, mesh := 50, knot := 10, first := 10, last := 19, ordered := 2, missed := 1 }) with
    state := .active, stations := 0x20, started := 1 }

/-- A bobbin of lot 7 with 2 m wound. -/
def bobbin (id : Nat) (st : BobbinState) (place : Option Place) : Bobbin :=
  { Bobbin.fresh id 100000 with
    state := st, place := place, lot := some 7, dir := some .s, wound := ⟨2000, 0⟩ }

/-- The bobbins of `works`: one winding, three on C0, two on L0, and one at rest in each other state. -/
def bobbins : List Bobbin :=
  [{ bobbin 1 .winding (some (.winding 0)) with wound := ⟨1000, 0⟩, fillPoint := some 2000 },
    bobbin 2 .mounted (some (.closer 0)), bobbin 3 .mounted (some (.closer 1)), bobbin 4 .mounted (some (.closer 2)),
    bobbin 5 .mounted (some (.feed 0 .upper)), bobbin 6 .mounted (some (.feed 0 .lower)), Bobbin.fresh 10 100000,
    bobbin 11 .full none, bobbin 12 .part none]

/-- A station record with a lot. -/
def manned (lot : Nat) (st : RunState) : Station := { Station.cold with bound := some 0, lot := some lot, state := st }

/-- A coil of lot 8 on its way. -/
def coil : Coil := { Coil.fresh 8 1 .wheel 0 with length := ⟨900, 0⟩ }

/-- A loom position in a panel, with a row open. -/
def inRow : LoomPos := { LoomPos.cold with inPanel := true, panel := 1, first := 10, last := 19, openRow := true }

/-- Works at work: S0 winds in STEADY for lot 7, C0 runs with K0 for lot 8 onto arbor A, L0 knots lot 9. -/
def works : State :=
  { bound with
    stations := bound.stations.set 0 (manned 7 .steady) |>.set 4 (manned 8 .steady) |>.set 5 (manned 9 .knotting)
      |>.set 7 (manned 8 .active)
    lots := State.reset.lots.set 0 (some strand7) |>.set 1 (some rope8) |>.set 2 (some net9)
    segments := State.reset.segments.set 0 { Segment.cold with rows := 3, left := .outward, stepRows := 2 }
    bobbins := bobbins
    looms := State.reset.looms.set 0 inRow
    coiler := { Coiler.cold with a := .busy .winding coil, tags := [100, 101] }
    settings := { Settings.default with lowMark := 100 } }

/-- Changes of one record of a state. -/
def stationTo (i : Sta) (f : Station → Station) (s : State) : State := s.setStation i (f (s.station i))
def inState (i : Sta) (st : RunState) : State → State := stationTo i fun r => { r with state := st }
def causes (i : Sta) (x : BitSet 12) : State → State := stationTo i fun r => { r with causes := x }
def atRest (i : Sta) : State → State := stationTo i fun r => { r with state := .idle, causes := 0, lot := none }
def boundTo (i : Sta) (p : Option Port) : State → State := stationTo i fun r => { r with bound := p }
def twistTo (t : Twi) (f : Twist → Twist) (s : State) : State := s.setTwist t (f (s.twist t))
def layTo (t : Twi) (f : Lay → Lay) : State → State := twistTo t fun w => { w with lay := f w.lay }
def portTo (p : Port) (f : PortUnit → PortUnit) (s : State) : State := s.setPort p (f (s.port p))
def loomTo (l : Loom) (f : LoomPos → LoomPos) (s : State) : State := s.setLoom l (f (s.loom l))
def meterTo (f : Meter → Meter) (s : State) : State := s.setMeter (f s.meter)
def coilerTo (f : Coiler → Coiler) (s : State) : State := s.setCoiler (f s.coiler)
def settingsTo (f : Settings → Settings) (s : State) : State := s.setSettings (f s.settings)
def lotTo (k : Slot) (f : Lot → Lot) (s : State) : State := s.setLot k (s.lots[k].map f)
def lotIn (k : Slot) (st : LotState) : State → State := lotTo k fun l => { l with state := st }
def bobbinTo (id : Nat) (f : Bobbin → Bobbin) (s : State) : State :=
  s.setBobbins (s.bobbins.map fun b => if b.id = id then f b else b)

/-- Arbor A with a coil in a phase, a length, a source, a tag. -/
def onA (ph : ArborPhase) (mm : Nat) (src : Source) (tag : Option Nat) (s : State) : State :=
  s.setArbor .a (.busy ph { coil with length := ⟨mm, 0⟩, source := src, tag := tag })

/-- A lay window about to close on twisting station `t`. -/
def closing (t : Twi) (n dl good : Nat) (s : State) : State :=
  layTo t (fun w =>
    { w with isOpen := true, closeCount := n, p := n - 1, dl := dl, good := good, f := some 0, seedPending := false }) s

/-- An answer in progress, and a held frame. -/
def answering : Answer := { kind := 0x05, code := .ok, status := 0, payload := [], startUs := 0 }
def heldFrame : Frame := { kind := 0x05, payload := [] }

/-- The construction terms of the lots 7, 8 and 9. -/
def strand7Terms : StrandLot := { dir := .s, lay := 1150, tol := 25, turns := 20, fill := 2, ordered := 3 }
def rope8Terms : RopeLot :=
  { RopeLot.fresh with
    dir := .z, strandLot := 7, takeUp := 1085, coilLen := 2, ordered := 2, slow := 500, mark := 1, slip := 10 }
def net9Terms : NetLot :=
  { NetLot.fresh with strandLot := 7, mesh := 50, knot := 10, first := 10, last := 19, ordered := 2, missed := 1 }

/-! ## Every statement with hypotheses is met by a state

One theorem for each statement; each of its lines holds the hypotheses of one clause, together, at one concrete state. -/

theorem witness_FrameBytesAreTheRequest :
    (requestOf (.stationBind 0 2) = some (0, .stationBind 2) ∧ Request.lengthOk (.stationBind 2) = true ∧ bound.power
      = .running ∧ (bound.port 0).asm = .hunt) ∧
    (requestOf (.lotWrite 0 7 (List.replicate 12 (1, 0))) = some (0, .lotWrite 7 (List.replicate 12 (1, 0))) ∧
      Request.lengthOk (.lotWrite 7 (List.replicate 12 (1, 0))) = true ∧ bound.power = .running ∧ (bound.port 0).asm =
      .hunt) ∧
    (requestOf (.rowReport 3 5 1 0) = some (3, .rowReport 5 1 0) ∧ Request.lengthOk (.rowReport 5 1 0) = true ∧
      bound.power = .running ∧ (bound.port 3).asm = .hunt) :=
  ⟨by decide, by decide, by decide⟩

def receiverDiscardsBrokenFrames1 : State := portTo 0 (fun u => { u with asm := .length 0 1, byteUs := 100 }) bound
def receiverDiscardsBrokenFrames2 : State :=
  portTo 0 (fun u => { u with asm := .check 0x55 1 [], byteUs := 100 }) bound
theorem witness_ReceiverDiscardsBrokenFrames :
    (bound.power = .running ∧ (bound.port 0).asm = .hunt) ∧
    ((receiverDiscardsBrokenFrames1.port 0).asm = .length 0 1 ∧ receiverDiscardsBrokenFrames1.power = .running ∧
      (receiverDiscardsBrokenFrames1.port 0).asm ≠ .hunt ∧ (64 : Nat) < (0x41 : Byte).toNat) ∧
    ((receiverDiscardsBrokenFrames2.port 0).asm = .check 0x55 1 [] ∧ receiverDiscardsBrokenFrames2.power = .running ∧
      (receiverDiscardsBrokenFrames2.port 0).asm ≠ .hunt ∧ crc8Byte 0x55 0 ≠ 0) :=
  ⟨by decide, by decide, by decide⟩

def answersGoInOrder1 : State := portTo 0 (fun u => { u with answer := some answering }) bound
def answersGoInOrder2 : State := portTo 0 (fun u => { u with answer := some answering, held := some heldFrame }) bound
theorem witness_AnswersGoInOrder :
    (requestOf (.portStatus 0) = some (0, .portStatus) ∧ Request.lengthOk .portStatus = true ∧ answersGoInOrder1.power
      = .running ∧ (answersGoInOrder1.port 0).answer ≠ none) ∧
    (requestOf (.portStatus 0) = some (0, .portStatus) ∧ Request.lengthOk .portStatus = true ∧ answersGoInOrder2.power
      = .running ∧ (answersGoInOrder2.port 0).answer ≠ none) ∧
    (answersGoInOrder1.power = .running ∧ (answersGoInOrder1.port 0).answer = some answering ∧ (answersGoInOrder1.port
      0).held = none) ∧
    (answersGoInOrder2.power = .running ∧ (answersGoInOrder2.port 0).answer = some answering ∧ (answersGoInOrder2.port
      0).held = some heldFrame) :=
  ⟨by decide, by decide, by decide, by decide⟩

def nothingIsTakenFromSupplyLow1 : State := { works with power := .off }
def nothingIsTakenFromSupplyLow2 : State := { works with power := .saving }
def nothingIsTakenFromSupplyLow3 : State := { works with power := .saved }
theorem witness_NothingIsTakenFromSupplyLow :
    (needsRunningPart (.stillnessExpiry 0) = true ∧ nothingIsTakenFromSupplyLow1.power ≠ .running) ∧
    (needsRunningPart (.portStatus 0) = true ∧ nothingIsTakenFromSupplyLow2.power ≠ .running) ∧
    (needsRunningPart (.byteReceived 0 0xC5 true) = true ∧ nothingIsTakenFromSupplyLow3.power ≠ .running) ∧
    (needsRunningPart (.storeCommitCompletion) = true ∧ nothingIsTakenFromSupplyLow2.power ≠ .running) ∧
    (needsRunningPart (.lineReset) = true ∧ nothingIsTakenFromSupplyLow3.power ≠ .running) :=
  ⟨by decide, by decide, by decide, by decide, by decide⟩

theorem witness_CommonChecksRefuse :
    (requestOf (.lotDetach 0 3) = some (0, .lotDetach 3) ∧ Request.control (.lotDetach 3) = some 3 ∧ Listens 0
      State.reset ∧ (∀ i, (3 : Byte) = staByte i → ¬ Steers 0 i State.reset) ∧ (.lotDetach 3 = Request.faultClear 0xFF
      → ∀ i, ¬ Steers 0 i State.reset)) ∧
    (requestOf (.faultClearAll 0) = some (0, .faultClear 0xFF) ∧ Request.control (.faultClear 0xFF) = some 0xFF ∧
      Listens 0 State.reset ∧ (∀ i, (0xFF : Byte) = staByte i → ¬ Steers 0 i State.reset) ∧ (.faultClear 0xFF =
      Request.faultClear 0xFF → ∀ i, ¬ Steers 0 i State.reset)) ∧
    (requestOf (.stationRun 0 8) = some (0, .stationRun 8) ∧ Request.control (.stationRun 8) = some 8 ∧ Listens 0
      works ∧ (∀ i, (8 : Byte) = staByte i → ¬ Steers 0 i works) ∧ (.stationRun 8 = Request.faultClear 0xFF → ∀ i, ¬
      Steers 0 i works)) ∧
    (requestOf (.bobbinMount 0 9 0 11) = some (0, .bobbinMount 9 0 11) ∧ Request.control (.bobbinMount 9 0 11) = some
      9 ∧ Listens 0 works ∧ (∀ i, (9 : Byte) = staByte i → ¬ Steers 0 i works) ∧ (.bobbinMount 9 0 11 =
      Request.faultClear 0xFF → ∀ i, ¬ Steers 0 i works)) ∧
    ((Instr.unknownRequest 0 0x06 []).wf = true ∧ Listens 0 State.reset) ∧
    ((Instr.unknownRequest 0 0x75 (List.replicate 64 0)).wf = true ∧ Listens 0 State.reset) ∧
    ((Instr.unknownRequest 0 0x00 [1]).wf = true ∧ Listens 0 State.reset) ∧
    (Listens 0 State.reset) ∧
    (State.reset.power = .running ∧ 13 ≤ (List.replicate 13 ((1 : Byte), (0 : BitVec 32))).length) :=
  ⟨by decide, by decide, by decide, by decide, by decide, by decide, by decide, by decide, by decide⟩

theorem witness_ReadsHaveNoEffect :
    Listens 0 works ∧ works.lot? 7 = some strand7 ∧ works.lot? 99 = none ∧ works.bobbin? 11 = some (bobbin 11 .full
      none) ∧ works.bobbin? 99 = none ∧ (7 : Nat) < (8 : Byte).toNat ∧ (4 : Nat) < (5 : Byte).toNat ∧ (3 : Byte).toNat
      < 4 ∧ (6 : Nat) < (7 : Byte).toNat ∧ (63 : Nat) < (64 : Byte).toNat ∧ (4 : Byte) ≠ 5 ∧ (7 : Byte) ≠ 6 ∧ (2 :
      Nat) < (3 : Byte).toNat := by decide

theorem witness_PortStatusReports :
    Listens 0 works := by decide

def bindAndUnbind1 : State := loomTo 1 (fun q => { q with openRow := true }) works
def bindAndUnbind2 : State :=
  portTo 2 (fun u => { u with live := false }) (boundTo 1 none (boundTo 2 (some 1) (boundTo 3 (some 2) works)))
theorem witness_BindAndUnbind :
    (Listens 0 works ∧ Steers 0 0 works ∧ (works.station 0).state = .steady ∧ twistOf 0 = some 0) ∧
    (Listens 0 works ∧ Steers 0 5 works ∧ (works.station 5).state = .knotting ∧ loomOf 5 = some 0) ∧
    (Listens 0 bindAndUnbind1 ∧ Steers 0 6 bindAndUnbind1) ∧
    (Listens 0 works ∧ Steers 0 1 works ∧ (works.station 1).state = .idle ∧ twistOf 1 = some 1) ∧
    (Listens 0 works ∧ Steers 0 7 works ∧ twistOf 7 = none ∧ loomOf 7 = none) ∧
    (Listens 0 bindAndUnbind2 ∧ (bindAndUnbind2.station 1).bound = none ∧ Steers 0 0 bindAndUnbind2 ∧ (1 : Port) ≠ 0 ∧
      (bindAndUnbind2.station 2).bound = some 1 ∧ (bindAndUnbind2.port 1).live = true ∧ (bindAndUnbind2.station
      3).bound = some 2 ∧ (bindAndUnbind2.port 2).live = false ∧ (7 : Nat) < (8 : Byte).toNat) :=
  ⟨by decide, by decide, by decide, by decide, by decide, by decide⟩

def faultClearRemovesLatchedCauses1 : State :=
  stationTo 0 (fun r => { r with state := .halted, causes := 0x003, retryUntilMs := some 5 }) works
def faultClearRemovesLatchedCauses2 : State :=
  causes 7 0x002 (inState 7 .halted (causes 4 0x800 (inState 4 .halted works)))
theorem witness_FaultClearRemovesLatchedCauses :
    (Listens 0 faultClearRemovesLatchedCauses1 ∧ Steers 0 0 faultClearRemovesLatchedCauses1) ∧
    (Listens 0 faultClearRemovesLatchedCauses2 ∧ Steers 0 7 faultClearRemovesLatchedCauses2) :=
  ⟨by decide, by decide⟩

theorem witness_FaultClearAllClearsTheBound :
    (Listens 0 faultClearRemovesLatchedCauses1 ∧ (∃ i, Steers 0 i faultClearRemovesLatchedCauses1) ∧ ∃ i, Steers 0 i
      faultClearRemovesLatchedCauses1 ∧ (faultClearRemovesLatchedCauses1.station i).retryUntilMs ≠ none) ∧
    (Listens 0 faultClearRemovesLatchedCauses2 ∧ (∃ i, Steers 0 i faultClearRemovesLatchedCauses2) ∧ ∀ i, Steers 0 i
      faultClearRemovesLatchedCauses2 → (faultClearRemovesLatchedCauses2.station i).retryUntilMs = none) :=
  ⟨by decide, by decide⟩

def raisedCauseStopsTheStation1 : State := causes 7 0x002 (inState 7 .halted works)
theorem witness_RaisedCauseStopsTheStation :
    (Cause.admissible .bobbinFull (kindOf 7) = false) ∧
    (Cause.admissible .laySevere (kindOf 0) = true ∧ works.has 0 .laySevere = false) ∧
    (Cause.admissible .power (kindOf 7) = true ∧ works.has 7 .power = false ∧ (works.station 7).state ≠ .halted ∧
      (works.station staC0).lot ≠ none) ∧
    (Cause.admissible .power (kindOf 7) = true ∧ raisedCauseStopsTheStation1.has 7 .power = false ∧
      (raisedCauseStopsTheStation1.station 7).state = .halted) :=
  ⟨by decide, by decide, by decide, by decide⟩

def noticesAreRoutedAndQueued1 : State :=
  works.setQueue 0 ((List.range 32).map fun k =>
    { cls := .lot, subject := .lot (k + 7), detail := 1, repeats := 255, first := 2 })
def noticesAreRoutedAndQueued2 : State :=
  works.setQueue 0 ((List.range 31).map fun k =>
    { cls := .lot, subject := .lot (k + 8), detail := 1, repeats := 255, first := 2 })
def noticesAreRoutedAndQueued3 : State :=
  works.setQueue 0 ((List.range 32).map fun k =>
    { cls := .lot, subject := .lot (k + 8), detail := 1, repeats := 255, first := 2 })
theorem witness_NoticesAreRoutedAndQueued :
    (∃ e ∈ noticesAreRoutedAndQueued1.queue 0, e.cls = .lot ∧ e.subject = .lot 7) ∧
    ((∀ e ∈ noticesAreRoutedAndQueued2.queue 0, ¬(e.cls = .lot ∧ e.subject = .lot 7)) ∧
      (noticesAreRoutedAndQueued2.queue 0).length < 32) ∧
    ((∀ e ∈ noticesAreRoutedAndQueued3.queue 0, ¬(e.cls = .lot ∧ e.subject = .lot 7)) ∧ 32 ≤
      (noticesAreRoutedAndQueued3.queue 0).length) :=
  ⟨by decide, by decide, by decide⟩

def stillnessEndsTheRun1 : State :=
  twistTo 0 (fun w =>
    { w with stillMs := some 100, still := false, lay := { w.lay with isOpen := true, p := 3, dl := 5 }, runUp := { count := 0, running := some (0, 80) }, runDown := { count := 0, running := some (0, 80) } })
    works
def stillnessEndsTheRun2 : State :=
  twistTo 4 (fun w =>
    { w with stillMs := some 100, still := false, lay := { w.lay with isOpen := true, p := 3, dl := 5 }, runUp := { count := 0, running := some (0, 80) }, runDown := { count := 0, running := some (0, 80) } })
    (inState 4 .runDown works)
def stillnessEndsTheRun3 : State :=
  twistTo 0 (fun w =>
    { w with stillMs := some 100, still := false, lay := { w.lay with isOpen := true, p := 3, dl := 5 }, runUp := { count := 0, running := some (0, 80) }, runDown := { count := 0, running := some (0, 80) } })
    (causes 0 0x020 (inState 0 .runDown works))
def stillnessEndsTheRun4 : State :=
  twistTo 1 (fun w =>
    { w with stillMs := some 100, still := false, lay := { w.lay with isOpen := true, p := 3, dl := 5 }, runUp := { count := 0, running := some (0, 80) }, runDown := { count := 0, running := some (0, 80) } })
    works
theorem witness_StillnessEndsTheRun :
    (stillnessEndsTheRun1.power = .running ∧ (stillnessEndsTheRun1.twist 0).stillMs = some 100 ∧
      (stillnessEndsTheRun1.station (twiSta 0)).state = .steady) ∧
    (stillnessEndsTheRun2.power = .running ∧ (stillnessEndsTheRun2.twist 4).stillMs = some 100 ∧
      (stillnessEndsTheRun2.station (twiSta 4)).state = .runDown) ∧
    (stillnessEndsTheRun3.power = .running ∧ (stillnessEndsTheRun3.twist 0).stillMs = some 100 ∧
      (stillnessEndsTheRun3.station (twiSta 0)).state = .runDown ∧ hasCause (stillnessEndsTheRun3.station (twiSta
      0)).causes .bobbinFull = true ∧ stillnessEndsTheRun3.bobbinAt (.winding 0) = some
      { bobbin 1 .winding (some (.winding 0)) with wound := ⟨1000, 0⟩, fillPoint := some 2000 } ∧ HasLot
      stillnessEndsTheRun3 0 strand7 ∧ strand7.done + 1 ≠ strand7.build.ordered) ∧
    (stillnessEndsTheRun4.power = .running ∧ (stillnessEndsTheRun4.twist 1).stillMs = some 100 ∧
      (stillnessEndsTheRun4.station (twiSta 1)).state = .idle) :=
  ⟨by decide, by decide, by decide, by decide⟩

/-- The same with the last bobbin of the order. -/
def lastFillStill : State := lotTo 0 (fun l => { l with started := 3, done := 2 }) stillnessEndsTheRun3
theorem witness_StillnessEndsTheRun_completes :
    lastFillStill.power = .running ∧ (lastFillStill.twist 0).stillMs = some 100 ∧ (lastFillStill.station 0).state = .runDown ∧
      hasCause (lastFillStill.station 0).causes .bobbinFull = true ∧
      (lastFillStill.bobbinAt (.winding 0)).map Bobbin.state = some .winding ∧
      HasLot lastFillStill 0 { strand7 with started := 3, done := 2 } ∧ 2 + 1 = strand7.build.ordered ∧
      strand7.state = .active := by decide

def timersActAtTheirTime1 : State :=
  stationTo 0 (fun r => { r with retryUntilMs := some 7 }) (coilerTo (fun k => { k with markMs := some 3 }) works)
def timersActAtTheirTime2 : State := layTo 0 (fun w => { w with isOpen := true, openMs := 4, p := 3, dl := 9 }) works
def timersActAtTheirTime3 : State :=
  twistTo 0 (fun w => { w with runUp := { count := 0, running := some (2, 80) } }) (inState 0 .runUp works)
def timersActAtTheirTime4 : State :=
  twistTo 0 (fun w => { w with runDown := { count := 0, running := some (2, 320) } }) (inState 0 .runDown works)
def timersActAtTheirTime5 : State :=
  twistTo 0 (fun w => { w with runDownLong := true, runUpLong := true }) (inState 0 .runDown works)
theorem witness_TimersActAtTheirTime :
    (timersActAtTheirTime1.power = .running ∧ (timersActAtTheirTime1.station 0).retryUntilMs = some 7 ∧
      timersActAtTheirTime1.coiler.markMs = some 3) ∧
    (works.power = .running ∧ (works.station 0).retryUntilMs = none ∧ works.coiler.markMs = none) ∧
    (timersActAtTheirTime2.power = .running ∧ (timersActAtTheirTime2.twist 0).lay.isOpen = true ∧
      (timersActAtTheirTime2.station (twiSta 0)).state = .steady) ∧
    ((timersActAtTheirTime3.station (twiSta 0)).state = .runUp ∧ (timersActAtTheirTime3.twist 0).runUpLong = false ∧
      (timersActAtTheirTime3.twist 0).runUp.running = some (2, 80) ∧ (timersActAtTheirTime3.twist 0).lay.isOpen =
      false) ∧
    ((timersActAtTheirTime4.station (twiSta 0)).state = .runDown ∧ (timersActAtTheirTime4.twist 0).runDownLong = false
      ∧ (timersActAtTheirTime4.twist 0).runDown.running = some (2, 320)) ∧
    ((timersActAtTheirTime5.twist 0).runUpLong = true ∧ (timersActAtTheirTime5.twist 0).runDownLong = true) :=
  ⟨by decide, by decide, by decide, by decide, by decide, by decide⟩

def channelsFilterAndCount1 : State :=
  { settingsTo (fun c => { c with filter := .replicate 11 .us20 }) works with power := .running }
def channelsFilterAndCount2 : State :=
  { settingsTo (fun c => { c with filter := .replicate 11 .off }) works with power := .running }
def channelsFilterAndCount3 : State :=
  { settingsTo (fun c => { c with filter := .replicate 11 .us20 }) works with power := .off }
def channelsFilterAndCount4 : State :=
  settingsTo (fun c => { c with edge := .replicate 11 .rise, filter := .replicate 11 .us20 }) (works.setChannel 1
    { raw := true, level := false, pending := some (true, 5) })
theorem witness_ChannelsFilterAndCount :
    ((works.channel 1).raw = false) ∧
    ((channelsFilterAndCount1.channel 1).raw ≠ true ∧ (channelsFilterAndCount1.power = .running ∧
      channelsFilterAndCount1.settings.filter[1] ≠ .off)) ∧
    ((channelsFilterAndCount2.channel 1).raw ≠ true ∧ channelsFilterAndCount2.power = .running ∧
      channelsFilterAndCount2.settings.filter[1] = .off) ∧
    ((channelsFilterAndCount3.channel 1).raw ≠ true ∧ channelsFilterAndCount3.power ≠ .running) ∧
    (channelsFilterAndCount4.power = .running ∧ (channelsFilterAndCount4.channel 1).pending = some (true, 5)) ∧
    ((8 : Chan).val = 2 * (4 : Twi).val ∧ (9 : Chan).val = 2 * (4 : Twi).val + 1 ∧ (10 : Chan).val = 10) :=
  ⟨by decide, by decide, by decide, by decide, by decide, by decide⟩

theorem witness_MeasuringArithmetic :
    ((⟨4294967295, 998⟩ : Len).um < 1000 ∧ (⟨4294967295, 998⟩ : Len).total + 1 < 4294967296000 ∧ 4294967296000 ≤
      (⟨4294967295, 999⟩ : Len).total + 1) ∧
    (0 < 20 ∧ 1 ≤ (2350000 + 50 * 20) / (100 * 20) ∧ (2350000 + 50 * 20) / (100 * 20) ≤ 65535) ∧
    (0 < 1 ∧ 1 ≤ (50 + 50 * 1) / (100 * 1) ∧ (50 + 50 * 1) / (100 * 1) ≤ 65535) ∧
    (0 < 1 ∧ 1 ≤ (6553549 + 50 * 1) / (100 * 1) ∧ (6553549 + 50 * 1) / (100 * 1) ≤ 65535) ∧
    (0 < 1150 ∧ 1150 ≤ 1175 ∧ (1000 * (1175 - 1150 : Int) < 1000 * 1150) ∧ -1000 * (1150 : Int) < 1000 * (1175 -
      1150)) :=
  ⟨by decide, by decide, by decide, by decide, by decide⟩

theorem witness_MeasuringArithmetic_clamps :
    (0 + 50 * 4 < 100 * 4) ∧ (65536 * (100 * 4) ≤ 4294967295 + 50 * 4) ∧
    (999 * (2000 : Int) ≤ 1000 * (65535 - 2000)) ∧ (1000 * (1 - 1150 : Int) ≤ -999 * 1150) :=
  ⟨by decide, by decide, by decide, by decide⟩

def flyEdgesMeasureTheLay1 : State := layTo 0 (fun w => { w with isOpen := true, closeCount := 20, p := 18 }) works
def flyEdgesMeasureTheLay2 : State := closing 0 20 2600000 1 (inState 0 .runUp works)
def flyEdgesMeasureTheLay3 : State := closing 0 20 2310000 0 (inState 0 .runUp works)
def flyEdgesMeasureTheLay4 : State := closing 0 20 2310000 1 (inState 0 .runUp works)
def flyEdgesMeasureTheLay5 : State := closing 0 20 2310000 0 (inState 0 .steady works)
def flyEdgesMeasureTheLay6 : State := closing 4 4 8000 0 (inState 4 .steady works)
def flyEdgesMeasureTheLay7 : State := closing 0 20 2450000 0 (inState 0 .steady works)
theorem witness_FlyEdgesMeasureTheLay :
    ((works.twist 0).lay.isOpen = false) ∧
    ((flyEdgesMeasureTheLay1 |>.twist 0).lay.isOpen = true ∧ (18 : Nat) + 1 < 20) ∧
    ((flyEdgesMeasureTheLay2.twist 0).lay.isOpen = true ∧ (flyEdgesMeasureTheLay2.twist 0).lay.closeCount ≤
      (flyEdgesMeasureTheLay2.twist 0).lay.p + 1 ∧ flyEdgesMeasureTheLay2.layTerms 0 = some (1150, 25, 20) ∧
      (flyEdgesMeasureTheLay2.station (twiSta 0)).state = .runUp ∧ (25 : Nat) < (errorOf (layOf 2600000 20)
      1150).natAbs) ∧
    ((flyEdgesMeasureTheLay3.twist 0).lay.isOpen = true ∧ (flyEdgesMeasureTheLay3.twist 0).lay.closeCount ≤
      (flyEdgesMeasureTheLay3.twist 0).lay.p + 1 ∧ flyEdgesMeasureTheLay3.layTerms 0 = some (1150, 25, 20) ∧
      (flyEdgesMeasureTheLay3.station (twiSta 0)).state = .runUp ∧ (errorOf (layOf 2310000 20) 1150).natAbs ≤ 25) ∧
    ((flyEdgesMeasureTheLay4.twist 0).lay.isOpen = true ∧ (flyEdgesMeasureTheLay4.twist 0).lay.closeCount ≤
      (flyEdgesMeasureTheLay4.twist 0).lay.p + 1 ∧ flyEdgesMeasureTheLay4.layTerms 0 = some (1150, 25, 20) ∧
      (flyEdgesMeasureTheLay4.station (twiSta 0)).state = .runUp ∧ (errorOf (layOf 2310000 20) 1150).natAbs ≤ 25) ∧
    ((flyEdgesMeasureTheLay5.twist 0).lay.isOpen = true ∧ (flyEdgesMeasureTheLay5.twist 0).lay.closeCount ≤
      (flyEdgesMeasureTheLay5.twist 0).lay.p + 1 ∧ flyEdgesMeasureTheLay5.layTerms 0 = some (1150, 25, 20) ∧
      (flyEdgesMeasureTheLay5.station (twiSta 0)).state = .steady ∧ (errorOf (layOf 2310000 20) 1150).natAbs ≤ 2 * 25
      ∧ (filterOf false (some 0) (errorOf (layOf 2310000 20) 1150)).natAbs ≤ 25) ∧
    ((flyEdgesMeasureTheLay6.twist 4).lay.isOpen = true ∧ (flyEdgesMeasureTheLay6.twist 4).lay.closeCount ≤
      (flyEdgesMeasureTheLay6.twist 4).lay.p + 1 ∧ flyEdgesMeasureTheLay6.layTerms 4 = some (20, 5, 4) ∧
      (flyEdgesMeasureTheLay6.station (twiSta 4)).state = .steady ∧ (errorOf (layOf 8000 4) 20).natAbs ≤ 2 * 5 ∧
      (filterOf false (some 0) (errorOf (layOf 8000 4) 20)).natAbs ≤ 5 ∧ works.coiler.a = .busy .winding coil) ∧
    ((flyEdgesMeasureTheLay7.twist 0).lay.isOpen = true ∧ (flyEdgesMeasureTheLay7.twist 0).lay.closeCount ≤
      (flyEdgesMeasureTheLay7.twist 0).lay.p + 1 ∧ flyEdgesMeasureTheLay7.layTerms 0 = some (1150, 25, 20) ∧
      (flyEdgesMeasureTheLay7.station (twiSta 0)).state = .steady ∧ 2 * 25 < (errorOf (layOf 2450000 20) 1150).natAbs
      ∧ (filterOf false (some 0) (errorOf (layOf 2450000 20) 1150)).natAbs ≤ 25 ∧ works.settings.haltEnable.getLsbD 0
      = true ∧ hasCause (works.station 0).causes .laySevere = false) :=
  ⟨by decide, by decide, by decide, by decide, by decide, by decide, by decide, by decide⟩

/-- A steady close that brings the drift count to 3 on S0; the same with LAY_DRIFT halt-enabled; a severe close that is not
halt-enabled; a severe close of C0. -/
def steadyDrift : State := layTo 0 (fun w => { w with f := some 60, drift := 2 }) flyEdgesMeasureTheLay5
def steadyDriftHalts : State := settingsTo (fun c => { c with haltEnable := 0b110 }) steadyDrift
def steadySevere : State := settingsTo (fun c => { c with haltEnable := 0b100 }) flyEdgesMeasureTheLay7
def steadySevereC0 : State := closing 4 4 9200 0 (inState 4 .steady works)
theorem witness_FlyEdgesMeasureTheLay_steady :
    ((steadyDrift.twist 0).lay.isOpen = true ∧ steadyDrift.layTerms 0 = some (1150, 25, 20) ∧
      (steadyDrift.twist 0).lay.closeCount ≤ (steadyDrift.twist 0).lay.p + 1 ∧
      (steadyDrift.station (twiSta 0)).state = .steady ∧ (steadyDrift.twist 0).lay.drift = 2 ∧
      25 < (filterOf false (some 60) (errorOf (layOf 2310000 20) 1150)).natAbs ∧
      steadyDrift.settings.haltEnable.getLsbD 1 = false) ∧
    ((steadyDriftHalts.station (twiSta 0)).state = .steady ∧ (steadyDriftHalts.station (twiSta 0)).causes = 0 ∧
      steadyDriftHalts.layTerms 0 = some (1150, 25, 20) ∧ steadyDriftHalts.settings.haltEnable.getLsbD 1 = true) ∧
    ((steadySevere.station (twiSta 0)).state = .steady ∧ 2 * 25 < (errorOf (layOf 2450000 20) 1150).natAbs ∧
      steadySevere.layTerms 0 = some (1150, 25, 20) ∧ steadySevere.settings.haltEnable.getLsbD 0 = false) ∧
    ((steadySevereC0.station (twiSta 4)).state = .steady ∧ (steadySevereC0.station (twiSta 4)).causes = 0 ∧
      steadySevereC0.layTerms 4 = some (20, 5, 4) ∧ 2 * 5 < (errorOf (layOf 9200 4) 20).natAbs ∧
      (steadySevereC0.twist 4).lay.isOpen = true ∧
      (steadySevereC0.twist 4).lay.closeCount ≤ (steadySevereC0.twist 4).lay.p + 1) :=
  ⟨by decide, by decide, by decide, by decide⟩

def stranderCapEdgesWind1 : State :=
  bobbinTo 1 (fun b => { b with wound := ⟨99999, 500⟩, overwind := false }) (settingsTo (fun c =>
    { c with disable := 0 }) (causes 0 0x020 (inState 0 .runDown works)))
def stranderCapEdgesWind2 : State :=
  bobbinTo 1 (fun b => { b with wound := ⟨1999, 0⟩ }) (layTo 0 (fun w => { w with isOpen := true, p := 2, dl := 7 })
    (inState 0 .steady works))
theorem witness_StranderCapEdgesWind :
    (works.bobbinAt (.winding 1) = none ∧ (1 : Twi).val = (1 : Strander).val) ∧
    (works.bobbinAt (.winding 0) = some
      { bobbin 1 .winding (some (.winding 0)) with wound := ⟨1000, 0⟩, fillPoint := some 2000 } ∧ (1000 * 1000 +
      works.settings.capstan[(0 : Twi)]) / 1000 < 2000 ∧ 1000 * 1000 + works.settings.capstan[(0 : Twi)] ≤ 100000 *
      1000) ∧
    (stranderCapEdgesWind1.bobbinAt (.winding 0) = some
      { { bobbin 1 .winding (some (.winding 0)) with wound := ⟨1000, 0⟩, fillPoint := some 2000 } with wound := ⟨99999, 500⟩, overwind := false }
      ∧ 100000 * 1000 < 99999500 + stranderCapEdgesWind1.settings.capstan[(0 : Twi)] ∧ (stranderCapEdgesWind1.station
      0).state = .runDown ∧ hasCause (stranderCapEdgesWind1.station 0).causes .bobbinFull = true) ∧
    (stranderCapEdgesWind2.bobbinAt (.winding 0) = some
      { { bobbin 1 .winding (some (.winding 0)) with wound := ⟨1000, 0⟩, fillPoint := some 2000 } with wound := ⟨1999, 0⟩ }
      ∧ 2000 ≤ (1999000 + stranderCapEdgesWind2.settings.capstan[(0 : Twi)]) / 1000 ∧ (stranderCapEdgesWind2.station
      0).state = .steady ∧ hasCause (stranderCapEdgesWind2.station 0).causes .bobbinFull = false) :=
  ⟨by decide, by decide, by decide, by decide⟩

/-- S0 in a state with a cause set, its WINDING bobbin with a fill point, a wound length and a capacity. -/
def nearFull (st : RunState) (x : BitSet 12) (fill wound cap : Nat) (s : State) : State :=
  bobbinTo 1 (fun b => { b with wound := ⟨wound, 0⟩, capacity := cap, fillPoint := some fill })
    (causes 0 x (inState 0 st s))
theorem witness_StranderCapEdgesWind_full :
    (∀ s ∈ [nearFull .runDown 0x020 2000 1999 100000 works, nearFull .runDown 0x080 2000 1999 100000 works,
        nearFull .steady 0 2000 2000 2000 works, nearFull .standby 0 2000 1999 100000 works,
        nearFull .halted 0x080 2000 1999 100000 works],
      s.settings.capstan[(0 : Twi)] = 1000 ∧ (s.bobbinAt (.winding 0)).map Bobbin.state = some .winding ∧
        (s.bobbinAt (.winding 0)).bind Bobbin.fillPoint = some 2000 ∧
        2000 ≤ ((s.bobbinAt (.winding 0)).map fun b => b.wound.mm + 1).getD 0) ∧
    ((nearFull .runDown 0x020 2000 1999 100000 works).station 0).state = .runDown ∧
    hasCause ((nearFull .runDown 0x020 2000 1999 100000 works).station 0).causes .bobbinFull = true ∧
    hasCause ((nearFull .runDown 0x080 2000 1999 100000 works).station 0).causes .bobbinFull = false ∧
    (2000 * 1000 < 2000 * 1000 + 1000 ∧ ((nearFull .steady 0 2000 2000 2000 works).station 0).state = .steady) ∧
    (((nearFull .standby 0 2000 1999 100000 works).station 0).state = .standby ∧
      HasLot (nearFull .standby 0 2000 1999 100000 works) 0 strand7 ∧ strand7.done + 1 ≠ strand7.build.ordered) ∧
    (((nearFull .halted 0x080 2000 1999 100000 works).station 0).state = .halted ∧
      hasCause ((nearFull .halted 0x080 2000 1999 100000 works).station 0).causes .bobbinFull = false) ∧
    (HasLot (lotTo 0 (fun l => { l with done := 2, started := 3 }) works) 0 { strand7 with done := 2, started := 3 } ∧
      2 + 1 = strand7.build.ordered ∧ strand7.state = .active) :=
  ⟨by decide, by decide, by decide, by decide, by decide, by decide, by decide, by decide⟩

theorem witness_DrawsAreConserved :
    (works.bobbinAt (.closer 0) = some (bobbin 2 .mounted (some (.closer 0))) ∧ (0 : Nat) ≤ 2000 * 1000) ∧
    (works.bobbinAt (.closer 3) = none) ∧
    (0 + 2000 * 1000 - min 2000000 (2000 * 1000) = 0) :=
  ⟨by decide, by decide, by decide⟩

theorem witness_CloserCapEdgesDraw :
    (bound.rope = none) ∧
    (works.rope = some rope8Terms ∧ (∀ (j : Pos), (works.setBobbins []).bobbinAt (.closer j) = none) ∧
      (works.setBobbins []).rope = some rope8Terms ∧ (works.setBobbins []).receiving = some .a ∧ (works.setBobbins
      []).arbor .a = .busy .winding coil) :=
  ⟨by decide, by decide⟩

theorem witness_CloserCapEdgesDraw_mounted :
    BobbinsOk works ∧ works.rope = some rope8Terms ∧ (0 : Pos).val < rope8Terms.strands ∧
      works.bobbinAt (.closer 0) = some (bobbin 2 .mounted (some (.closer 0))) ∧
      (2000000 : Nat) - 0 - min ((2000000 * 1085 + 0) / 1000) 2000000 = 0 := by
  unfold BobbinsOk BobbinTableOk BobbinOk; decide

def wheelEdgesMeterTheRope1 : State := coilerTo (fun k => { k with a := .free }) works
def wheelEdgesMeterTheRope2 : State := onA .winding 900 .capstan none works
theorem witness_WheelEdgesMeterTheRope :
    ((bound.station staK0).lot = none) ∧
    ((wheelEdgesMeterTheRope1.station staK0).lot ≠ none ∧ wheelEdgesMeterTheRope1.rope = some rope8Terms ∧
      wheelEdgesMeterTheRope1.receiving = none) ∧
    ((wheelEdgesMeterTheRope2.station staK0).lot ≠ none ∧ wheelEdgesMeterTheRope2.receiving = some .a ∧
      wheelEdgesMeterTheRope2.arbor .a = .busy .winding
      { coil with length := ⟨900, 0⟩, source := .capstan, tag := none }) ∧
    (works.receiving = some .a ∧ works.arbor .a = .busy .winding coil ∧ coil.source = .wheel ∧ works.meter.stall =
      false) :=
  ⟨by decide, by decide, by decide, by decide⟩

def coilsGrowThroughTheirPoints1 : State := onA .cutting 2100 .wheel none works
def coilsGrowThroughTheirPoints2 : State := onA .winding 900 .wheel none works
def coilsGrowThroughTheirPoints3 : State := onA .winding 1499 .wheel none works
def coilsGrowThroughTheirPoints4 : State := onA .slowing 1600 .wheel none works
def coilsGrowThroughTheirPoints5 : State := onA .slowing 1999 .wheel none works
theorem witness_CoilsGrowThroughTheirPoints :
    (coilsGrowThroughTheirPoints1.receiving = some .a ∧ coilsGrowThroughTheirPoints1.arbor .a = .busy .cutting
      { coil with length := ⟨2100, 0⟩, source := .wheel, tag := none } ∧ coilsGrowThroughTheirPoints1.ropeOf 8 = some
      rope8Terms) ∧
    (coilsGrowThroughTheirPoints2.receiving = some .a ∧ coilsGrowThroughTheirPoints2.arbor .a = .busy .winding
      { coil with length := ⟨900, 0⟩, source := .wheel, tag := none } ∧ coilsGrowThroughTheirPoints2.ropeOf 8 = some
      rope8Terms) ∧
    (coilsGrowThroughTheirPoints2.receiving = some .a ∧ coilsGrowThroughTheirPoints2.arbor .a = .busy .winding
      { coil with length := ⟨900, 0⟩, source := .wheel, tag := none } ∧ coilsGrowThroughTheirPoints2.ropeOf 8 = some
      rope8Terms) ∧
    (coilsGrowThroughTheirPoints3.receiving = some .a ∧ coilsGrowThroughTheirPoints3.arbor .a = .busy .winding
      { coil with length := ⟨1499, 0⟩, source := .wheel, tag := none } ∧ coilsGrowThroughTheirPoints3.ropeOf 8 = some
      rope8Terms) ∧
    (coilsGrowThroughTheirPoints4.receiving = some .a ∧ coilsGrowThroughTheirPoints4.arbor .a = .busy .slowing
      { coil with length := ⟨1600, 0⟩, source := .wheel, tag := none } ∧ coilsGrowThroughTheirPoints4.ropeOf 8 = some
      rope8Terms) ∧
    (coilsGrowThroughTheirPoints5.receiving = some .a ∧ coilsGrowThroughTheirPoints5.arbor .a = .busy .slowing
      { coil with length := ⟨1999, 0⟩, source := .wheel, tag := none } ∧ coilsGrowThroughTheirPoints5.ropeOf 8 = some
      rope8Terms) :=
  ⟨by decide, by decide, by decide, by decide, by decide, by decide⟩

def capstanIncrementsJudgeTheWheel1 : State :=
  meterTo (fun m => { m with stallDist := 1998999 }) (coilerTo (fun k => { k with a := .free }) works)
def capstanIncrementsJudgeTheWheel2 : State :=
  meterTo (fun m => { m with stall := true }) (coilerTo (fun k => { k with a := .free }) works)
def capstanIncrementsJudgeTheWheel3 : State :=
  meterTo (fun m => { m with stall := true }) (onA .winding 900 .capstan none works)
def capstanIncrementsJudgeTheWheel4 : State :=
  meterTo (fun m => { m with stallDist := 1999000, slipOpen := true }) works
def capstanIncrementsJudgeTheWheel5 : State := meterTo (fun m => { m with slipOpen := true, winCap := 9998999 }) works
def capstanIncrementsJudgeTheWheel6 : State :=
  meterTo (fun m => { m with slipOpen := true, winCap := 9999000, winWheel := 9500000 }) works
theorem witness_CapstanIncrementsJudgeTheWheel :
    ((capstanIncrementsJudgeTheWheel1.station staK0).lot ≠ none ∧ capstanIncrementsJudgeTheWheel1.rope = some
      rope8Terms ∧ capstanIncrementsJudgeTheWheel1.receiving = none ∧ capstanIncrementsJudgeTheWheel1.meter.slipOpen =
      false ∧ capstanIncrementsJudgeTheWheel1.meter.stall = false ∧ capstanIncrementsJudgeTheWheel1.meter.stallDist +
      1000 < 2000000) ∧
    ((capstanIncrementsJudgeTheWheel2.station staK0).lot ≠ none ∧ capstanIncrementsJudgeTheWheel2.rope = some
      rope8Terms ∧ capstanIncrementsJudgeTheWheel2.receiving = none ∧ capstanIncrementsJudgeTheWheel2.meter.slipOpen =
      false ∧ capstanIncrementsJudgeTheWheel2.meter.stall = true) ∧
    ((capstanIncrementsJudgeTheWheel3.station staK0).lot ≠ none ∧ capstanIncrementsJudgeTheWheel3.rope = some
      rope8Terms ∧ capstanIncrementsJudgeTheWheel3.receiving = some .a ∧
      capstanIncrementsJudgeTheWheel3.meter.slipOpen = false ∧ capstanIncrementsJudgeTheWheel3.meter.stall = true) ∧
    ((capstanIncrementsJudgeTheWheel4.station staK0).lot ≠ none ∧ capstanIncrementsJudgeTheWheel4.rope = some
      rope8Terms ∧ capstanIncrementsJudgeTheWheel4.receiving = some .a ∧ capstanIncrementsJudgeTheWheel4.meter.stall =
      false ∧ 2000000 ≤ capstanIncrementsJudgeTheWheel4.meter.stallDist + 1000) ∧
    ((capstanIncrementsJudgeTheWheel5.station staK0).lot ≠ none ∧ capstanIncrementsJudgeTheWheel5.rope = some
      rope8Terms ∧ capstanIncrementsJudgeTheWheel5.receiving = some .a ∧
      capstanIncrementsJudgeTheWheel5.meter.slipOpen = true ∧ capstanIncrementsJudgeTheWheel5.meter.winCap + 1000 <
      10000000) ∧
    ((capstanIncrementsJudgeTheWheel6.station staK0).lot ≠ none ∧ capstanIncrementsJudgeTheWheel6.rope = some
      rope8Terms ∧ capstanIncrementsJudgeTheWheel6.receiving = some .a ∧ capstanIncrementsJudgeTheWheel6.ropeOf
      coil.lot = some rope8Terms ∧ capstanIncrementsJudgeTheWheel6.meter.slipOpen = true ∧ 10000000 ≤
      capstanIncrementsJudgeTheWheel6.meter.winCap + 1000) :=
  ⟨by decide, by decide, by decide, by decide, by decide, by decide⟩

/-- Works with arbor A changed and a stall distance; and no coil on arbor A. -/
def metering (a : State → State) (dist : Nat) : State := meterTo (fun m => { m with stallDist := dist }) (a works)
def nothingOnA : State → State := coilerTo fun k => { k with a := .free }
theorem witness_CapstanIncrementsJudgeTheWheel_flagClear :
    (∀ s ∈ [metering nothingOnA 1999000, metering (onA .winding 900 .mixed none) 1998999,
        metering (onA .winding 900 .capstan none) 1999000, metering id 1998999],
      (s.station staK0).lot ≠ none ∧ s.rope = some rope8Terms ∧ s.meter.slipOpen = false ∧ s.meter.stall = false) ∧
    ((metering nothingOnA 1999000).receiving = none ∧ 2000000 ≤ 1999000 + 1000) ∧
    ((metering (onA .winding 900 .mixed none) 1998999).receivingCoil.map Coil.source = some .mixed ∧
      1998999 + 1000 < 2000000) ∧
    (metering (onA .winding 900 .capstan none) 1999000).receivingCoil.map Coil.source = some .capstan ∧
    (metering id 1998999).receivingCoil.map Coil.source = some .wheel :=
  ⟨by decide, by decide, by decide, by decide, by decide⟩

def lotCreateFillsTheLowestSlot1 : State := { works with lots := .replicate 16 (some strand7) }
theorem witness_LotCreateFillsTheLowestSlot :
    (Listens 0 works ∧ ((0 : BitVec 16) = 0 ∧ (9 : Byte) ≠ 1)) ∧
    (Listens 0 works ∧ ((0 : BitVec 16) = 0 ∧ (9 : Byte) ≠ 1)) ∧
    ((7 : BitVec 16) ≠ 0 ∧ works.lots[(0 : Slot)] = some strand7 ∧ strand7.number = (7 : BitVec 16).toNat) ∧
    (∀ k : Slot, lotCreateFillsTheLowestSlot1.lots[k] = some strand7 ∧ strand7.number ≠ (50 : BitVec 16).toNat) ∧
    (Listens 0 works ∧ works.lots[(3 : Slot)] = none ∧ (∀ j : Slot, j < 3 → works.lots[j] ≠ none) ∧ ∀ k : Slot, ∀ l ∈
      works.lots[k], l.number ≠ (50 : BitVec 16).toNat) :=
  ⟨by decide, by decide, by decide, by decide, by decide⟩

def lotWriteIsWhole1 : State := lotIn 0 .draft (lotTo 0 (fun l => { l with started := 0, stations := 0 }) works)
theorem witness_LotWriteIsWhole :
    (Listens 0 works ∧ works.lot? 99 = none) ∧
    (HasLot works 0 strand7 ∧ strand7.state ≠ .draft) ∧
    (HasLot lotWriteIsWhole1 0 { strand7 with state := .draft, started := 0, stations := 0 } ∧ Build.writeAll 0
      [(2, 900), (99, 0)] strand7.build false = none) ∧
    (Build.writeAll 0 [(2, 900)] strand7.build false = some (.strand { strand7Terms with lay := 900 }, false) ∧
      strand7.build = .strand strand7Terms) :=
  ⟨by decide, by decide, by decide, by decide⟩

def lotCheckFreezes1 : State := lotIn 1 .draft (works.setLot 0 none)
theorem witness_LotCheckFreezes :
    (Listens 0 works ∧ works.lot? 99 = none) ∧
    (HasLot works 0 strand7 ∧ strand7.state ≠ .draft) ∧
    (Listens 0 lotCheckFreezes1 ∧ HasLot lotCheckFreezes1 1 { rope8 with state := .draft } ∧ planReason rope8.build
      lotCheckFreezes1 = some 1) ∧
    (HasLot lotWriteIsWhole1 0 { strand7 with state := .draft, started := 0, stations := 0 } ∧ planReason
      strand7.build lotWriteIsWhole1 = none ∧ checkValue strand7.build lotWriteIsWhole1 ≠ 0) ∧
    (Listens 0 lotWriteIsWhole1 ∧ HasLot lotWriteIsWhole1 0
      { strand7 with state := .draft, started := 0, stations := 0 } ∧ planReason strand7.build lotWriteIsWhole1 =
      none) :=
  ⟨by decide, by decide, by decide, by decide, by decide⟩

theorem witness_LotCheckFreezes_plan :
    (HasLot works 0 strand7 ∧ strand7.number = rope8Terms.strandLot ∧ rope8Terms.dir ≠ strand7Terms.dir) ∧
    (net9Terms.first ≤ net9Terms.last ∧ net9Terms.head = 0 ∧ (works.segment 0).next = none ∧
      0 < (works.segment 0).rows) ∧
    ((works.segment 6).rows = 0) :=
  ⟨by decide, by decide, by decide⟩

def lotsReopenHoldResume1 : State := lotIn 0 .draft works
def lotsReopenHoldResume2 : State := lotIn 0 .ready works
def lotsReopenHoldResume3 : State := lotIn 0 .active works
def lotsReopenHoldResume4 : State := lotIn 0 .held works
def lotsReopenHoldResume5 : State := lotIn 0 .complete works
def lotsReopenHoldResume6 : State := lotIn 0 .closed works
theorem witness_LotsReopenHoldResume :
    (Listens 0 lotsReopenHoldResume1 ∧ HasLot lotsReopenHoldResume1 0 { strand7 with state := .draft }) ∧
    (Listens 0 lotsReopenHoldResume2 ∧ HasLot lotsReopenHoldResume2 0 { strand7 with state := .ready }) ∧
    (Listens 0 lotsReopenHoldResume3 ∧ HasLot lotsReopenHoldResume3 0 { strand7 with state := .active }) ∧
    (Listens 0 lotsReopenHoldResume4 ∧ HasLot lotsReopenHoldResume4 0 { strand7 with state := .held }) ∧
    (Listens 0 lotsReopenHoldResume5 ∧ HasLot lotsReopenHoldResume5 0 { strand7 with state := .complete }) ∧
    (Listens 0 lotsReopenHoldResume6 ∧ HasLot lotsReopenHoldResume6 0 { strand7 with state := .closed }) ∧
    (works.lot? 99 = none) :=
  ⟨by decide, by decide, by decide, by decide, by decide, by decide, by decide⟩

def lotsCloseAndGo1 : State := onA .winding 0 .wheel none works
def lotsCloseAndGo2 : State := lotTo 0 (fun l => { l with number := 50, state := .closed }) works
theorem witness_LotsCloseAndGo :
    (Listens 0 lotsReopenHoldResume3 ∧ HasLot lotsReopenHoldResume3 0 { strand7 with state := .active } ∧
      lotsReopenHoldResume3.windingArbor = some .a ∧ coil.lot ≠ 7) ∧
    (Listens 0 lotsReopenHoldResume6 ∧ HasLot lotsReopenHoldResume6 0 { strand7 with state := .closed } ∧
      lotsReopenHoldResume6.windingArbor = some .a ∧ coil.lot ≠ 7) ∧
    (works.lot? 99 = none) ∧
    (HasLot lotsCloseAndGo1 1 rope8 ∧ rope8.state ≠ .draft ∧ rope8.state ≠ .closed ∧ lotsCloseAndGo1.windingArbor =
      some .a ∧ lotsCloseAndGo1.arbor .a = .busy .winding
      { coil with length := ⟨0, 0⟩, source := .wheel, tag := none }) ∧
    (HasLot works 1 rope8 ∧ works.windingArbor = some .a ∧ works.arbor .a = .busy .winding coil ∧ coil.lot = 8 ∧ 0 <
      coil.length.mm) ∧
    ((lotsCloseAndGo2.lot? 50).map Lot.state = some .closed ∧ (∀ i, (lotsCloseAndGo2.station i).lot ≠ some 50) ∧ (∀ b
      ∈ lotsCloseAndGo2.bobbins, b.lot ≠ some 50) ∧ (lotsCloseAndGo2.coiler.a.coil?.map Coil.lot) ≠ some 50) :=
  ⟨by decide, by decide, by decide, by decide, by decide, by decide⟩

def attachGivesAStationItsLot1 : State :=
  atRest 5 (loomTo 0 (fun q =>
    { q with faults := [{ panel := 1, row := 1, missed := 1, stray := 0, needle := 3 }], overflow := true, endPending := true })
    works)
def attachGivesAStationItsLot2 : State :=
  bobbinTo 6 (fun b => { b with state := .runOut, drawn := b.wound }) (atRest 5 (loomTo 0 (fun q =>
    { q with faults := [{ panel := 1, row := 1, missed := 1, stray := 0, needle := 3 }], overflow := true, endPending := true })
    works))
theorem witness_AttachGivesAStationItsLot :
    (Listens 0 works ∧ Steers 0 0 works ∧ (works.station 0).state ≠ .idle) ∧
    (Steers 0 1 works ∧ (works.station 1).state = .idle ∧ works.lot? 99 = none) ∧
    (Listens 0 lotsReopenHoldResume4 ∧ Steers 0 1 lotsReopenHoldResume4 ∧ (lotsReopenHoldResume4.station 1).state =
      .idle ∧ HasLot lotsReopenHoldResume4 0 { strand7 with state := .held }) ∧
    (Listens 0 works ∧ Steers 0 1 works ∧ (works.station 1).state = .idle ∧ HasLot works 0 strand7 ∧ strand7.state =
      .active ∧ (1 : Sta) = twiSta 1 ∧ strand7.build = .strand strand7Terms) ∧
    (HasLot lotsReopenHoldResume2 0 { strand7 with state := .ready }) ∧
    (Listens 0 attachGivesAStationItsLot1 ∧ Steers 0 5 attachGivesAStationItsLot1 ∧
      (attachGivesAStationItsLot1.station 5).state = .idle ∧ HasLot attachGivesAStationItsLot1 2 net9 ∧ (5 : Sta) =
      loomSta 0 ∧ net9.build = .net net9Terms ∧ (∀ b ∈ attachGivesAStationItsLot1.bobbinAt (.feed 0 .upper), b.lot =
      some 7 ∧ b.state ≠ .runOut) ∧ ∀ b ∈ attachGivesAStationItsLot1.bobbinAt (.feed 0 .lower), b.lot = some 7 ∧
      b.state ≠ .runOut) ∧
    ((attachGivesAStationItsLot2.bobbinAt (.feed 0 .lower)).map Bobbin.state = some .runOut ∧
      (attachGivesAStationItsLot2.station 5).causes = 0 ∧ (attachGivesAStationItsLot2.station 5).state = .idle ∧
      HasLot attachGivesAStationItsLot2 2 net9) ∧
    (net9.build.fits (kindOf 1) = false) :=
  ⟨by decide, by decide, by decide, by decide, by decide, by decide, by decide, by decide⟩

theorem witness_AttachGivesAStationItsLot_foreign :
    let s := bobbinTo 6 (fun b => { b with lot := some 6 }) attachGivesAStationItsLot1
    Listens 0 s ∧ Steers 0 5 s ∧ (s.station 5).state = .idle ∧ HasLot s 2 net9 ∧ net9.build = .net net9Terms ∧
      (s.bobbinAt (.feed 0 .lower)).bind Bobbin.lot = some 6 ∧ net9Terms.strandLot ≠ 6 := by decide

def attachOfThePair1 : State :=
  coilerTo (fun k => { k with a := .free, wheelTally := ⟨5, 5⟩, unassigned := ⟨7, 7⟩ }) (twistTo 4 (fun w =>
    { w with acc := ⟨9, 9⟩ }) (meterTo (fun m =>
    { m with stall := true, stallDist := 5, slipOpen := true, winCap := 3, winWheel := 4, lastSlip := some 3 })
    { atRest 4 (atRest 7 works) with closerShort := ⟨1, 1⟩ }))
def attachOfThePair2 : State :=
  bobbinTo 3 (fun b => { b with state := .runOut, drawn := b.wound }) (coilerTo (fun k =>
    { k with a := .free, wheelTally := ⟨5, 5⟩, unassigned := ⟨7, 7⟩ }) (twistTo 4 (fun w => { w with acc := ⟨9, 9⟩ })
    (meterTo (fun m =>
    { m with stall := true, stallDist := 5, slipOpen := true, winCap := 3, winWheel := 4, lastSlip := some 3 })
    { atRest 4 (atRest 7 works) with closerShort := ⟨1, 1⟩ })))
def attachOfThePair3 : State :=
  bobbinTo 3 (fun b => { b with dir := some .z }) (coilerTo (fun k =>
    { k with a := .free, wheelTally := ⟨5, 5⟩, unassigned := ⟨7, 7⟩ }) (twistTo 4 (fun w => { w with acc := ⟨9, 9⟩ })
    (meterTo (fun m =>
    { m with stall := true, stallDist := 5, slipOpen := true, winCap := 3, winWheel := 4, lastSlip := some 3 })
    { atRest 4 (atRest 7 works) with closerShort := ⟨1, 1⟩ })))
def attachOfThePair4 : State :=
  inState 7 .halted (causes 7 0x008 (coilerTo (fun k =>
    { k with a := .free, wheelTally := ⟨5, 5⟩, unassigned := ⟨7, 7⟩ }) (twistTo 4 (fun w => { w with acc := ⟨9, 9⟩ })
    (meterTo (fun m =>
    { m with stall := true, stallDist := 5, slipOpen := true, winCap := 3, winWheel := 4, lastSlip := some 3 })
    { atRest 4 (atRest 7 works) with closerShort := ⟨1, 1⟩ }))))
theorem witness_AttachOfThePair :
    (Listens 0 attachOfThePair1 ∧ Steers 0 staC0 attachOfThePair1 ∧ (attachOfThePair1.station staC0).state = .idle ∧
      (attachOfThePair1.station staC0).causes = 0 ∧ HasLot attachOfThePair1 1 rope8 ∧ rope8.build = .rope rope8Terms ∧
      (attachOfThePair1.station staK0).state = .idle ∧ ∀ j : Pos, ∀ b ∈ attachOfThePair1.bobbinAt (.closer j), b.lot =
      some 7 ∧ b.dir ≠ some .z ∧ b.state ≠ .runOut) ∧
    (Listens 0 attachOfThePair2 ∧ Steers 0 staC0 attachOfThePair2 ∧ (attachOfThePair2.station staC0).state = .idle ∧
      (attachOfThePair2.station staC0).causes = 0 ∧ HasLot attachOfThePair2 1 rope8 ∧ rope8.build = .rope rope8Terms ∧
      (attachOfThePair2.station staK0).state = .idle ∧ (attachOfThePair2.bobbinAt (.closer 1)).map Bobbin.state = some
      .runOut ∧ (1 : Pos).val < 3) ∧
    (Listens 0 attachOfThePair3 ∧ Steers 0 staC0 attachOfThePair3 ∧ (attachOfThePair3.station staC0).state = .idle ∧
      (attachOfThePair3.station staC0).causes = 0 ∧ HasLot attachOfThePair3 1 rope8 ∧ rope8.build = .rope rope8Terms ∧
      (attachOfThePair3.station staK0).state = .idle ∧ (attachOfThePair3.bobbinAt (.closer 1)).map Bobbin.dir = some
      (some .z)) ∧
    ((attachOfThePair4.station staC0).state = .idle ∧ (attachOfThePair4.station staK0).state ≠ .idle) :=
  ⟨by decide, by decide, by decide, by decide⟩

def detachTakesTheLotAway1 : State := inState 0 .standby works
def detachTakesTheLotAway2 : State :=
  bobbinTo 1 (fun b => { b with state := .full, place := none }) (inState 0 .standby works)
def detachTakesTheLotAway3 : State :=
  loomTo 0 (fun q => { q with openRow := false, inPanel := false }) (inState 5 .standby works)
def detachTakesTheLotAway4 : State :=
  loomTo 0 (fun q => { q with openRow := false, endPending := true }) (inState 5 .standby works)
def detachTakesTheLotAway5 : State :=
  coilerTo (fun k => { k with a := .free }) (meterTo (fun m =>
    { m with slipOpen := true, winCap := 5, winWheel := 6 }) (inState 4 .standby works))
theorem witness_DetachTakesTheLotAway :
    (Listens 0 works ∧ Steers 0 0 works ∧ (works.station 0).lot = some strand7.number ∧ HasLot works 0 strand7 ∧
      stationRuns 0 works = true) ∧
    (Listens 0 detachTakesTheLotAway1 ∧ Steers 0 0 detachTakesTheLotAway1 ∧ (detachTakesTheLotAway1.station 0).lot =
      some strand7.number ∧ HasLot detachTakesTheLotAway1 0 strand7 ∧ stationRuns 0 detachTakesTheLotAway1 = false ∧
      strSta 0 = 0) ∧
    (Listens 0 detachTakesTheLotAway2 ∧ Steers 0 0 detachTakesTheLotAway2 ∧ (detachTakesTheLotAway2.station 0).lot =
      some strand7.number ∧ HasLot detachTakesTheLotAway2 0 strand7 ∧ stationRuns 0 detachTakesTheLotAway2 = false ∧
      detachTakesTheLotAway2.bobbinAt (.winding 0) = none) ∧
    (Listens 0 detachTakesTheLotAway3 ∧ Steers 0 5 detachTakesTheLotAway3 ∧ (detachTakesTheLotAway3.station 5).lot =
      some net9.number ∧ HasLot detachTakesTheLotAway3 2 net9 ∧ stationRuns 5 detachTakesTheLotAway3 = false ∧ loomSta
      0 = 5 ∧ (detachTakesTheLotAway3.loom 0).inPanel = false) ∧
    (Listens 0 detachTakesTheLotAway4 ∧ Steers 0 5 detachTakesTheLotAway4 ∧ (detachTakesTheLotAway4.station 5).lot =
      some net9.number ∧ HasLot detachTakesTheLotAway4 2 net9 ∧ stationRuns 5 detachTakesTheLotAway4 = false ∧
      (detachTakesTheLotAway4.loom 0).inPanel = true) ∧
    (Listens 0 detachTakesTheLotAway5 ∧ Steers 0 4 detachTakesTheLotAway5 ∧ (detachTakesTheLotAway5.station 4).lot =
      some rope8.number ∧ HasLot detachTakesTheLotAway5 1 rope8 ∧ stationRuns staC0 detachTakesTheLotAway5 = false ∧
      detachTakesTheLotAway5.coiler.a = .free ∧ detachTakesTheLotAway5.coiler.b = .free) :=
  ⟨by decide, by decide, by decide, by decide, by decide, by decide⟩

theorem witness_DetachTakesTheLotAway_none : Listens 0 works ∧ Steers 0 1 works ∧ (works.station 1).lot = none := by decide

def runStartsTheTwist1 : State := bobbinTo 3 (fun b => { b with state := .runOut }) (inState 4 .standby works)
def runStartsTheTwist2 : State := inState 4 .standby works
def runStartsTheTwist3 : State := coilerTo (fun k => { k with a := .free }) (inState 4 .standby works)
theorem witness_RunStartsTheTwist :
    (Listens 0 works ∧ Steers 0 (twiSta 0) works ∧ (works.station (twiSta 0)).state ≠ .standby) ∧
    (Listens 0 detachTakesTheLotAway1 ∧ Steers 0 (twiSta 0) detachTakesTheLotAway1 ∧ strSta 0 = twiSta 0 ∧
      (detachTakesTheLotAway1.station (twiSta 0)).state = .standby ∧ detachTakesTheLotAway1.bobbinAt (.winding 0) =
      some { bobbin 1 .winding (some (.winding 0)) with wound := ⟨1000, 0⟩, fillPoint := some 2000 }) ∧
    (Listens 0 detachTakesTheLotAway2 ∧ Steers 0 (twiSta 0) detachTakesTheLotAway2 ∧ (detachTakesTheLotAway2.station
      (twiSta 0)).state = .standby ∧ detachTakesTheLotAway2.bobbinAt (.winding 0) = none) ∧
    (Listens 0 runStartsTheTwist1 ∧ Steers 0 (twiSta 4) runStartsTheTwist1 ∧ Place.closer 1 ∈ usedPlaces staC0
      runStartsTheTwist1 ∧ (runStartsTheTwist1.bobbinAt (.closer 1)).map Bobbin.state = some .runOut) ∧
    (Listens 0 runStartsTheTwist2 ∧ Steers 0 (twiSta 4) runStartsTheTwist2 ∧ (∀ pl ∈ usedPlaces staC0
      runStartsTheTwist2, (runStartsTheTwist2.bobbinAt pl).map Bobbin.state = some .mounted) ∧
      runStartsTheTwist2.windingArbor = some .a) ∧
    (Listens 0 runStartsTheTwist3 ∧ Steers 0 (twiSta 4) runStartsTheTwist3 ∧ (∀ pl ∈ usedPlaces staC0
      runStartsTheTwist3, (runStartsTheTwist3.bobbinAt pl).map Bobbin.state = some .mounted) ∧
      runStartsTheTwist3.windingArbor = none ∧ runStartsTheTwist3.arbor .a = .free ∧ HasLot runStartsTheTwist3 1 rope8
      ∧ (runStartsTheTwist3.station (twiSta 4)).lot = some rope8.number ∧ rope8.started < rope8Terms.ordered ∧
      rope8.state ≠ .closed ∧ BobbinsOk runStartsTheTwist3) :=
  ⟨by decide, by decide, by decide, by decide, by decide, by unfold BobbinsOk BobbinTableOk BobbinOk; decide⟩

def runStartsTheLoom1 : State :=
  bobbinTo 6 (fun b => { b with place := none, state := .part }) (inState 5 .standby works)
def runStartsTheLoom2 : State := inState 5 .standby works
def runStartsTheLoom3 : State :=
  loomTo 0 (fun q => { q with inPanel := false, openRow := false, panel := 4 }) (inState 5 .standby works)
def runStartsTheLoom4 : State :=
  lotTo 2 (fun l => { l with started := 2 }) (loomTo 0 (fun q =>
    { q with inPanel := false, openRow := false, panel := 4 }) (inState 5 .standby works))
theorem witness_RunStartsTheLoom :
    (Listens 0 works ∧ Steers 0 (loomSta 0) works ∧ (works.station (loomSta 0)).state ≠ .standby) ∧
    (Listens 0 runStartsTheLoom1 ∧ Steers 0 (loomSta 0) runStartsTheLoom1 ∧ (runStartsTheLoom1.station (loomSta
      0)).state = .standby ∧ runStartsTheLoom1.bobbinAt (.feed 0 .lower) = none) ∧
    (Listens 0 runStartsTheLoom2 ∧ Steers 0 (loomSta 0) runStartsTheLoom2 ∧ (runStartsTheLoom2.station (loomSta
      0)).state = .standby ∧ (runStartsTheLoom2.bobbinAt (.feed 0 .upper)).map Bobbin.state = some .mounted ∧
      (runStartsTheLoom2.bobbinAt (.feed 0 .lower)).map Bobbin.state = some .mounted ∧ (runStartsTheLoom2.loom
      0).inPanel = true) ∧
    (Listens 0 runStartsTheLoom3 ∧ Steers 0 (loomSta 0) runStartsTheLoom3 ∧ (runStartsTheLoom3.station (loomSta
      0)).state = .standby ∧ (runStartsTheLoom3.bobbinAt (.feed 0 .upper)).map Bobbin.state = some .mounted ∧
      (runStartsTheLoom3.bobbinAt (.feed 0 .lower)).map Bobbin.state = some .mounted ∧ (runStartsTheLoom3.loom
      0).inPanel = false ∧ HasLot runStartsTheLoom3 2 net9 ∧ (runStartsTheLoom3.station (loomSta 0)).lot = some
      net9.number ∧ net9.started < net9Terms.ordered ∧ net9.state ≠ .closed) ∧
    (Listens 0 runStartsTheLoom4 ∧ Steers 0 (loomSta 0) runStartsTheLoom4 ∧ HasLot runStartsTheLoom4 2
      { net9 with started := 2 } ∧ net9Terms.ordered ≤ 2 ∧ (runStartsTheLoom4.loom 0).inPanel = false) :=
  ⟨by decide, by decide, by decide, by decide, by decide⟩

def stopEndsTheRun1 : State := inState 0 .standby (inState 4 .runDown (inState 5 .rowHold works))
theorem witness_StopEndsTheRun :
    (Listens 0 works ∧ Steers 0 (twiSta 0) works ∧ Steers 0 (loomSta 0) works ∧ Steers 0 staK0 works ∧ (works.station
      (twiSta 0)).state = .steady ∧ (works.station (loomSta 0)).state = .knotting ∧ (works.station (twiSta 1)).state =
      .idle ∧ (works.station (loomSta 1)).state = .idle) ∧
    ((stopEndsTheRun1.station (twiSta 0)).state = .standby ∧ (stopEndsTheRun1.station (loomSta 0)).state = .rowHold) :=
  ⟨by decide, by decide⟩

def registerMakesASpareBobbin1 : State := works.setBobbins ((List.range 64).map fun k => Bobbin.fresh (k + 1) 1000)
theorem witness_RegisterMakesASpareBobbin :
    (Listens 0 works) ∧
    (∃ b ∈ works.bobbins, b.id = (1 : BitVec 16).toNat) ∧
    ((∀ b ∈ registerMakesASpareBobbin1.bobbins, b.id ≠ (500 : BitVec 16).toNat) ∧ 64 ≤
      registerMakesASpareBobbin1.bobbins.length) ∧
    ((∀ b ∈ works.bobbins, b.id ≠ (7 : BitVec 16).toNat) ∧ works.bobbins.length < 64 ∧ BobbinsOk works) :=
  ⟨by decide, by decide, by decide, by unfold BobbinsOk BobbinTableOk BobbinOk; decide⟩

def removeAndReturn1 : State := bobbinTo 12 (fun b => { b with state := .spent, drawn := b.wound, low := true }) works
theorem witness_RemoveAndReturn :
    (Listens 0 works ∧ works.bobbin? (10 : BitVec 16).toNat = some (Bobbin.fresh 10 100000)) ∧
    ((works.bobbin? 11).map Bobbin.state = some .full) ∧
    (∀ b ∈ works.bobbins, b.id ≠ (99 : BitVec 16).toNat) ∧
    ((works.bobbin? 12).map Bobbin.state = some .part) ∧
    ((removeAndReturn1.bobbin? 12).map Bobbin.state = some .spent) :=
  ⟨by decide, by decide, by decide, by decide, by decide⟩

def issueAndDoff1 : State :=
  lotTo 0 (fun l => { l with started := 3 }) (bobbinTo 1 (fun b => { b with state := .full, place := none }) (inState
    0 .standby works))
def issueAndDoff2 : State := bobbinTo 1 (fun b => { b with wound := ⟨0, 999⟩ }) (inState 0 .standby works)
def issueAndDoff3 : State := lotTo 0 (fun l => { l with started := 3, done := 2 }) (inState 0 .standby works)
theorem witness_IssueAndDoff :
    (Listens 0 works ∧ Steers 0 4 works ∧ 4 ≤ (4 : Sta).val) ∧
    (Listens 0 works ∧ Steers 0 (strSta 0) works ∧ works.bobbin? 99 = none ∧ (works.bobbin? 11).map Bobbin.state =
      some .full ∧ works.bobbin? 10 = some (Bobbin.fresh 10 100000) ∧ HasLot works 0 strand7 ∧ (works.station (strSta
      0)).lot = some strand7.number ∧ (works.bobbinAt (.winding 0)).isSome ∧ (works.station (strSta 0)).state =
      .steady) ∧
    (Listens 0 works ∧ Steers 0 (strSta 1) works ∧ (works.station (strSta 1)).lot = none ∧ (works.station (strSta
      1)).state = .idle ∧ works.bobbinAt (.winding 1) = none) ∧
    (Listens 0 detachTakesTheLotAway2 ∧ Steers 0 (strSta 0) detachTakesTheLotAway2 ∧ detachTakesTheLotAway2.bobbinAt
      (.winding 0) = none ∧ HasLot detachTakesTheLotAway2 0 strand7 ∧ strand7.started < strand7Terms.ordered ∧
      strand7.state ≠ .closed) ∧
    (Listens 0 issueAndDoff1 ∧ Steers 0 (strSta 0) issueAndDoff1 ∧ HasLot issueAndDoff1 0
      { strand7 with started := 3 } ∧ strand7Terms.ordered ≤ 3 ∧ issueAndDoff1.bobbinAt (.winding 0) = none) ∧
    (Listens 0 issueAndDoff2 ∧ Steers 0 (strSta 0) issueAndDoff2 ∧ (issueAndDoff2.bobbinAt (.winding 0)).map
      Bobbin.wound = some ⟨0, 999⟩ ∧ (issueAndDoff2.bobbinAt (.winding 0)).map Bobbin.state = some .winding ∧ HasLot
      issueAndDoff2 0 strand7) ∧
    (Listens 0 detachTakesTheLotAway1 ∧ Steers 0 (strSta 0) detachTakesTheLotAway1 ∧ detachTakesTheLotAway1.bobbinAt
      (.winding 0) = some { bobbin 1 .winding (some (.winding 0)) with wound := ⟨1000, 0⟩, fillPoint := some 2000 } ∧
      HasLot detachTakesTheLotAway1 0 strand7 ∧ strand7.done + 1 ≠ strand7.build.ordered) ∧
    (Listens 0 issueAndDoff3 ∧ Steers 0 (strSta 0) issueAndDoff3 ∧ HasLot issueAndDoff3 0
      { strand7 with started := 3, done := 2 } ∧ (2 : Nat) + 1 = strand7.build.ordered ∧ strand7.state = .active) :=
  ⟨by decide, by decide, by decide, by decide, by decide, by decide, by decide, by decide⟩

def mountAndDismount1 : State :=
  bobbinTo 2 (fun b => { b with place := none, state := .part }) (inState 4 .standby works)
def mountAndDismount2 : State :=
  { bobbinTo 2 (fun b => { b with place := none, state := .part }) (causes 4 0x040 (inState 4 .halted works)) with residues := .replicate 4 7 }
def mountAndDismount3 : State :=
  bobbinTo 11 (fun b => { b with lot := some 6 }) (bobbinTo 2 (fun b => { b with place := none, state := .part })
    (inState 4 .standby works))
def mountAndDismount4 : State :=
  bobbinTo 11 (fun b => { b with dir := some .z }) (bobbinTo 2 (fun b => { b with place := none, state := .part })
    (inState 4 .standby works))
def mountAndDismount5 : State :=
  bobbinTo 5 (fun b => { b with place := none, state := .part }) (inState 5 .standby works)
def mountAndDismount6 : State :=
  loomTo 0 (fun q => { q with openRow := false }) (bobbinTo 5 (fun b => { b with place := none, state := .part })
    (inState 5 .standby works))
theorem witness_MountAndDismount :
    (Listens 0 works ∧ Steers 0 4 works ∧ placeOf 4 4 = none) ∧
    (Listens 0 works ∧ Steers 0 5 works ∧ placeOf 5 3 = none) ∧
    (Listens 0 works ∧ Steers 0 7 works ∧ placeOf 7 0 = none) ∧
    (Listens 0 works ∧ Steers 0 0 works ∧ placeOf 0 0 = none) ∧
    (Listens 0 works ∧ Steers 0 4 works ∧ placeOf 4 0 = some (.closer 0) ∧ works.bobbin? 11 = some (bobbin 11 .full
      none) ∧ HasLot works 1 rope8 ∧ (works.station 4).lot = some rope8.number ∧ Place.closer 0 ∈ usedPlaces 4 works ∧
      (works.bobbinAt (.closer 0)).isSome ∧ stationRuns 4 works = true) ∧
    (Listens 0 mountAndDismount1 ∧ Steers 0 4 mountAndDismount1 ∧ placeOf 4 0 = some (.closer 0) ∧
      mountAndDismount1.bobbin? 11 = some (bobbin 11 .full none) ∧ mountAndDismount1.bobbinAt (.closer 0) = none ∧
      HasLot mountAndDismount1 1 rope8 ∧ (mountAndDismount1.station 4).lot = some rope8.number ∧ Place.closer 0 ∈
      usedPlaces 4 mountAndDismount1 ∧ (bobbin 11 .full none).lot = some rope8.build.strandLot ∧ (bobbin 11 .full
      none).dir ≠ rope8.build.ropeDir) ∧
    (Listens 0 mountAndDismount2 ∧ Steers 0 4 mountAndDismount2 ∧ placeOf 4 0 = some (.closer 0) ∧ hasCause
      (mountAndDismount2.station 4).causes .feedOut = true ∧ mountAndDismount2.bobbin? 11 = some (bobbin 11 .full
      none) ∧ mountAndDismount2.bobbinAt (.closer 0) = none) ∧
    (Listens 0 mountAndDismount3 ∧ Steers 0 4 mountAndDismount3 ∧ placeOf 4 0 = some (.closer 0) ∧
      (mountAndDismount3.bobbin? 11).map Bobbin.lot = some (some 6) ∧ rope8.build.strandLot ≠ 6) ∧
    (Listens 0 mountAndDismount4 ∧ Steers 0 4 mountAndDismount4 ∧ placeOf 4 0 = some (.closer 0) ∧
      (mountAndDismount4.bobbin? 11).map Bobbin.dir = some rope8.build.ropeDir) ∧
    (Listens 0 mountAndDismount5 ∧ Steers 0 5 mountAndDismount5 ∧ placeOf 5 4 = some (.feed 0 .upper) ∧
      mountAndDismount5.bobbinAt (.feed 0 .upper) = none ∧ HasLot mountAndDismount5 2 net9 ∧
      (mountAndDismount5.station 5).lot = some net9.number ∧ (bobbin 11 .full none).lot = some net9.build.strandLot ∧
      (5 : Sta) ≠ staC0) ∧
    (Listens 0 mountAndDismount6 ∧ Steers 0 5 mountAndDismount6 ∧ placeOf 5 5 = some (.feed 0 .lower) ∧
      (mountAndDismount6.bobbinAt (.feed 0 .lower)).map Bobbin.state = some .mounted ∧ stationRuns 5 mountAndDismount6
      = false) ∧
    (Listens 0 mountAndDismount6 ∧ Steers 0 5 mountAndDismount6 ∧ placeOf 5 4 = some (.feed 0 .upper) ∧
      mountAndDismount6.bobbinAt (.feed 0 .upper) = none) :=
  ⟨by decide, by decide, by decide, by decide, by decide, by decide, by decide, by decide, by decide, by decide, by
    decide, by decide⟩

theorem witness_MountAndDismount_refused :
    (Listens 0 works ∧ Steers 0 4 works ∧ placeOf 4 3 = some (.closer 3) ∧ works.bobbin? 99 = none) ∧
    (Steers 0 6 works ∧ placeOf 6 4 = some (.feed 1 .upper) ∧ works.bobbin? 11 ≠ none ∧ (works.station 6).lot = none) ∧
    (HasLot works 1 rope8 ∧ (works.station 4).lot = some rope8.number ∧ rope8.build = .rope rope8Terms ∧
      rope8Terms.strands = 3) :=
  ⟨by decide, by decide, by decide⟩

theorem witness_SegmentWriteRespectsFreezing :
    (works.lots[(2 : Slot)] = some net9 ∧ net9.build = .net net9Terms ∧ net9.state = .active ∧ net9Terms.head = 0) ∧
    (Listens 0 works ∧ TaperStep.ofByte 2 = none ∧ (63 : Nat) < (64 : Byte).toNat ∧ (63 : Nat) < (0xFE : Byte).toNat) ∧
    (TaperStep.ofByte 0 = some .none ∧ TaperStep.ofByte 1 = some .outward ∧ (63 : Byte).toNat < 64 ∧ frozen 0 works =
      true ∧ frozen 1 works = false) :=
  ⟨by decide, by decide, by decide⟩

def rowReportTakesTheRow1 : State :=
  loomTo 0 (fun q => { q with row := 2, rowIn := 2 }) (bobbinTo 5 (fun b => { b with drawn := ⟨10, 600⟩ }) works)
theorem witness_RowReportTakesTheRow :
    (Listens 0 works ∧ Steers 0 (loomSta 0) works ∧ HasLot works 2 net9 ∧ (works.station (loomSta 0)).lot = some
      net9.number ∧ net9.build = .net net9Terms ∧ (works.loom 0).openRow = true ∧ works.bobbinAt (.feed 0 .upper) =
      some (bobbin 5 .mounted (some (.feed 0 .upper))) ∧ works.bobbinAt (.feed 0 .lower) = some (bobbin 6 .mounted
      (some (.feed 0 .lower))) ∧ (works.station (loomSta 0)).state = .knotting ∧ (works.station (loomSta 0)).causes =
      0 ∧ (works.loom 0).rowIn < (works.segment (works.loom 0).segment).rows ∧ (1 : BitVec 24).toNat = (works.loom
      0).row ∧ BobbinsOk works ∧ ((List.range 256).countP fun n => (decide (10 ≤ n) && decide (n ≤ 19)) != (decide (n
      < 200) && BitVec.getMsbD ((0x3FF : BitVec 256) <<< 236) n)) ≤ net9Terms.missed ∧ works.settings.lowMark * 1000 ≤
      ((bobbin 5 .mounted (some (.feed 0 .upper)))).wound.total - ((bobbin 5 .mounted (some (.feed 0
      .upper)))).drawn.total - ((600 + 1) / 2) * 1000 ∧ (works.loom 0).shortfall.mm ≤ 4294967295 ∧ (works.loom
      0).shortfall.um < 1000) ∧
    (Listens 0 rowReportTakesTheRow1 ∧ Steers 0 (loomSta 0) rowReportTakesTheRow1 ∧ HasLot rowReportTakesTheRow1 2
      net9 ∧ (rowReportTakesTheRow1.station (loomSta 0)).lot = some net9.number ∧ net9.build = .net net9Terms ∧
      (rowReportTakesTheRow1.loom 0).openRow = true ∧ rowReportTakesTheRow1.bobbinAt (.feed 0 .upper) = some
      { bobbin 5 .mounted (some (.feed 0 .upper)) with drawn := ⟨10, 600⟩ } ∧ rowReportTakesTheRow1.bobbinAt (.feed 0
      .lower) = some (bobbin 6 .mounted (some (.feed 0 .lower))) ∧ (rowReportTakesTheRow1.station (loomSta 0)).state =
      .knotting ∧ (rowReportTakesTheRow1.station (loomSta 0)).causes = 0 ∧ (rowReportTakesTheRow1.loom 0).rowIn <
      (rowReportTakesTheRow1.segment (rowReportTakesTheRow1.loom 0).segment).rows ∧ (2 : BitVec 24).toNat =
      (rowReportTakesTheRow1.loom 0).row ∧ BobbinsOk rowReportTakesTheRow1 ∧ ((List.range 256).countP fun n => (decide
      (10 ≤ n) && decide (n ≤ 19)) != (decide (n < 200) && BitVec.getMsbD ((0x3FF : BitVec 256) <<< 236) n)) ≤
      net9Terms.missed ∧ rowReportTakesTheRow1.settings.lowMark * 1000 ≤
      ({ bobbin 5 .mounted (some (.feed 0 .upper)) with drawn := ⟨10, 600⟩ }).wound.total -
      ({ bobbin 5 .mounted (some (.feed 0 .upper)) with drawn := ⟨10, 600⟩ }).drawn.total - ((600 + 1) / 2) * 1000 ∧
      (rowReportTakesTheRow1.loom 0).shortfall.mm ≤ 4294967295 ∧ (rowReportTakesTheRow1.loom 0).shortfall.um < 1000) :=
  ⟨by unfold BobbinsOk BobbinTableOk BobbinOk; decide, by unfold BobbinsOk BobbinTableOk BobbinOk; decide⟩

/-- The last row of the chain; the same with no start left, and with the lot's last panel; a segment that another follows; a
loom at rest with its row open; an upper feed that runs out. -/
def chainEnds : State := loomTo 0 (fun q => { q with rowIn := 3 }) works
def chainEndsFull : State := lotTo 2 (fun l => { l with started := 2 }) chainEnds
def chainEndsDone : State := lotTo 2 (fun l => { l with started := 2, done := 1 }) chainEnds
def segmentEnds : State :=
  (chainEnds.setSegment 0 { works.segment 0 with next := some 1 }).setSegment 1 { Segment.cold with rows := 5 }
def rowAtRest : State := inState 5 .standby works
def feedRunsOut : State := bobbinTo 5 (fun b => { b with drawn := ⟨1900, 0⟩ }) works
theorem witness_RowReportTakesTheRow_ends :
    (∀ s ∈ [chainEnds, chainEndsFull, chainEndsDone, segmentEnds, rowAtRest, feedRunsOut],
      Listens 0 s ∧ Steers 0 (loomSta 0) s ∧ (s.station (loomSta 0)).lot = some 9 ∧ (s.loom 0).openRow = true ∧
        (s.loom 0).row = 1) ∧
    (HasLot chainEnds 2 net9 ∧ ¬ (chainEnds.loom 0).rowIn < (chainEnds.segment 0).rows ∧
      (chainEnds.segment 0).next = none ∧ net9.started < net9Terms.ordered ∧ net9.done + 1 ≠ net9Terms.ordered) ∧
    (HasLot chainEndsFull 2 { net9 with started := 2 } ∧ net9Terms.ordered ≤ 2) ∧
    (HasLot chainEndsDone 2 { net9 with started := 2, done := 1 } ∧ net9.state = .active ∧
      net9.stations.getLsbD (loomSta 0).val = true) ∧
    ((segmentEnds.segment 0).next = some 1 ∧ 0 < (segmentEnds.segment 1).rows) ∧
    ((rowAtRest.station (loomSta 0)).state ≠ .knotting) ∧
    (feedRunsOut.bobbinAt (.feed 0 .upper) =
      some { bobbin 5 .mounted (some (.feed 0 .upper)) with drawn := ⟨1900, 0⟩ }) :=
  ⟨by decide, by decide, by decide, by decide, by decide, by decide, by decide⟩

def rowReportsOutOfTurn1 : State := atRest 5 works
def rowReportsOutOfTurn2 : State := loomTo 0 (fun q => { q with openRow := false }) works
def rowReportsOutOfTurn3 : State :=
  loomTo 0 (fun q =>
    { q with openRow := false, lastTaken := some 6, lastAnswer := some (.next, some { panel := 1, row := 7, first := 3, last := 9 }) })
    works
theorem witness_RowReportsOutOfTurn :
    (Listens 0 rowReportsOutOfTurn1 ∧ Steers 0 (loomSta 0) rowReportsOutOfTurn1 ∧ (rowReportsOutOfTurn1.station
      (loomSta 0)).lot = none) ∧
    (Listens 0 works ∧ Steers 0 (loomSta 0) works ∧ HasLot works 2 net9 ∧ (works.station (loomSta 0)).lot = some
      net9.number ∧ net9.build = .net net9Terms ∧ (works.loom 0).openRow = true ∧ (2 : BitVec 24).toNat ≠ (works.loom
      0).row) ∧
    (Listens 0 rowReportsOutOfTurn2 ∧ Steers 0 (loomSta 0) rowReportsOutOfTurn2 ∧ HasLot rowReportsOutOfTurn2 2 net9 ∧
      (rowReportsOutOfTurn2.loom 0).openRow = false ∧ (rowReportsOutOfTurn2.loom 0).lastTaken = none) ∧
    (Listens 0 rowReportsOutOfTurn3 ∧ Steers 0 (loomSta 0) rowReportsOutOfTurn3 ∧ (rowReportsOutOfTurn3.loom
      0).openRow = false ∧ (rowReportsOutOfTurn3.loom 0).lastTaken = some 6 ∧ (rowReportsOutOfTurn3.loom 0).lastAnswer
      = some (.next, some { panel := 1, row := 7, first := 3, last := 9 })) ∧
    (Listens 0 works ∧ Steers 0 (loomSta 0) works ∧ (works.loom 0).openRow = true ∧ (1 : BitVec 24).toNat =
      (works.loom 0).row ∧ net9Terms.missed < faultCount (works.loom 0) 0 works.settings.needles[(0 : Loom)]) :=
  ⟨by decide, by decide, by decide, by decide, by decide⟩

theorem witness_RowReportsOutOfTurn_noLoom :
    Listens 0 works ∧ ∀ i ∈ [0, 4, 7], Steers 0 i works ∧ i ≠ loomSta 0 ∧ i ≠ loomSta 1 := by decide

def rowRepliesEndTheHold1 : State :=
  loomTo 0 (fun q => { q with openRow := false, row := 7 }) (inState 5 .rowHold works)
def rowRepliesEndTheHold2 : State :=
  causes 5 0x040 (loomTo 0 (fun q => { q with openRow := false, row := 7 }) (inState 5 .rowHold works))
def rowRepliesEndTheHold3 : State :=
  loomTo 0 (fun q => { q with endPending := true, row := 3 }) (loomTo 0 (fun q =>
    { q with openRow := false, row := 7 }) (inState 5 .rowHold works))
def rowRepliesEndTheHold4 : State :=
  causes 5 0x040 (loomTo 0 (fun q => { q with endPending := true, row := 3 }) (loomTo 0 (fun q =>
    { q with openRow := false, row := 7 }) (inState 5 .rowHold works)))
theorem witness_RowRepliesEndTheHold :
    (Listens 0 works ∧ Steers 0 (loomSta 0) works ∧ (works.station (loomSta 0)).state ≠ .rowHold) ∧
    (Listens 0 rowRepliesEndTheHold1 ∧ Steers 0 (loomSta 0) rowRepliesEndTheHold1 ∧ (rowRepliesEndTheHold1.station
      (loomSta 0)).state = .rowHold ∧ (rowRepliesEndTheHold1.loom 0).endPending = false ∧
      (rowRepliesEndTheHold1.station (loomSta 0)).causes = 0 ∧ HasLot rowRepliesEndTheHold1 2 net9 ∧
      (rowRepliesEndTheHold1.station (loomSta 0)).lot = some net9.number) ∧
    (Listens 0 rowRepliesEndTheHold2 ∧ Steers 0 (loomSta 0) rowRepliesEndTheHold2 ∧ (rowRepliesEndTheHold2.station
      (loomSta 0)).state = .rowHold ∧ (rowRepliesEndTheHold2.loom 0).endPending = false ∧
      (rowRepliesEndTheHold2.station (loomSta 0)).causes ≠ 0) ∧
    (Listens 0 rowRepliesEndTheHold3 ∧ Steers 0 (loomSta 0) rowRepliesEndTheHold3 ∧ (rowRepliesEndTheHold3.station
      (loomSta 0)).state = .rowHold ∧ (rowRepliesEndTheHold3.loom 0).endPending = true ∧
      (rowRepliesEndTheHold3.station (loomSta 0)).causes = 0 ∧ HasLot rowRepliesEndTheHold3 2 net9 ∧ net9.done + 1 ≠
      net9Terms.ordered ∧ net9.started < net9Terms.ordered ∧ net9.state ≠ .closed) ∧
    (Listens 0 rowRepliesEndTheHold4 ∧ Steers 0 (loomSta 0) rowRepliesEndTheHold4 ∧ (rowRepliesEndTheHold4.station
      (loomSta 0)).state = .rowHold ∧ (rowRepliesEndTheHold4.loom 0).endPending = true ∧
      (rowRepliesEndTheHold4.station (loomSta 0)).causes ≠ 0) :=
  ⟨by decide, by decide, by decide, by decide, by decide⟩

/-- The end of the panel pending, with no start left, and with the last panel of the order. -/
def holdEndsOrder : State := lotTo 2 (fun l => { l with started := 2 }) rowRepliesEndTheHold3
def holdEndsLast : State := lotTo 2 (fun l => { l with started := 2, done := 1 }) rowRepliesEndTheHold3
theorem witness_RowRepliesEndTheHold_last :
    (∀ s ∈ [holdEndsOrder, holdEndsLast], Listens 0 s ∧ Steers 0 (loomSta 0) s ∧ (s.station (loomSta 0)).state = .rowHold ∧
      (s.station (loomSta 0)).causes = 0 ∧ (s.loom 0).endPending = true ∧ (s.station (loomSta 0)).lot = some net9.number) ∧
    (HasLot holdEndsOrder 2 { net9 with started := 2 } ∧ net9.build = .net net9Terms ∧ net9.done + 1 ≠ net9Terms.ordered ∧
      net9Terms.ordered ≤ 2) ∧
    (HasLot holdEndsLast 2 { net9 with started := 2, done := 1 } ∧ 1 + 1 = net9Terms.ordered ∧ net9.state = .active ∧
      net9.stations.getLsbD (loomSta 0).val = true) :=
  ⟨by decide, by decide, by decide⟩

def readsThatRemove1 : State :=
  loomTo 0 (fun q => { q with overflow := true }) (loomTo 0 (fun q =>
    { q with faults := (List.range 5).map fun k => { panel := 1, row := k, missed := 1, stray := 0, needle := 3 } })
    works)
theorem witness_ReadsThatRemove :
    (Listens 0 works ∧ (0 : Byte).toNat < 1) ∧
    ((4 : Nat) < (5 : Byte).toNat) ∧
    (1 ≤ (4 : Byte).toNat ∧ (4 : Byte).toNat ≤ 4 ∧ (4 : Byte) ≠ 5 ∧ (4 : Byte) ≠ 6) :=
  ⟨by decide, by decide, by decide⟩

def cutDonePacksAndStarts1 : State :=
  causes 4 0x600 (inState 4 .halted (coilerTo (fun k =>
    { k with a := .busy .cutting { coil with length := ⟨2100, 700⟩ } }) works))
def cutDonePacksAndStarts2 : State :=
  lotTo 1 (fun l => { l with started := 2, done := 1 }) <| (causes 4 0x600 (inState 4 .halted (coilerTo (fun k =>
    { k with a := .busy .cutting { coil with length := ⟨2100, 700⟩ } }) works)))
theorem witness_CutDonePacksAndStarts :
    (Listens 0 ( cutDonePacksAndStarts1) ∧ Steers 0 staK0 ( cutDonePacksAndStarts1) ∧ ((
      cutDonePacksAndStarts1).station staK0).lot ≠ none ∧ ( cutDonePacksAndStarts1).arbor .a = .busy .cutting
      { coil with length := ⟨2100, 700⟩ } ∧ ( cutDonePacksAndStarts1).arbor .b = .free ∧ HasLot (
      cutDonePacksAndStarts1) 1 rope8 ∧ { coil with length := ⟨2100, 700⟩ }.lot = rope8.number ∧ rope8.build = .rope
      rope8Terms ∧ ( cutDonePacksAndStarts1).rope = some rope8Terms ∧ rope8.started < rope8Terms.ordered ∧ rope8.state
      ≠ .closed ∧ rope8.done + 1 ≠ rope8Terms.ordered) ∧
    (Listens 0 cutDonePacksAndStarts2 ∧ Steers 0 staK0 cutDonePacksAndStarts2 ∧ (cutDonePacksAndStarts2.station
      staK0).lot ≠ none ∧ cutDonePacksAndStarts2.arbor .a = .busy .cutting { coil with length := ⟨2100, 700⟩ } ∧
      cutDonePacksAndStarts2.arbor .b = .free ∧ HasLot cutDonePacksAndStarts2 1 { rope8 with started := 2, done := 1 }
      ∧ { coil with length := ⟨2100, 700⟩ }.lot = rope8.number ∧ rope8.build = .rope rope8Terms ∧
      cutDonePacksAndStarts2.rope = some rope8Terms ∧ ({ rope8 with started := 2, done := 1 } : Lot).started =
      rope8Terms.ordered ∧ ({ rope8 with started := 2, done := 1 } : Lot).done + 1 = rope8Terms.ordered ∧
      ({ rope8 with started := 2, done := 1 } : Lot).state = .active) :=
  ⟨by decide, by decide⟩

/-- A remnant CUTTING for a CLOSED lot. -/
def remnantCut : State :=
  causes 4 0x300 (inState 4 .halted (lotIn 1 .closed
    (works.setArbor .a (.busy .cutting { coil with remnant := true }))))
theorem witness_CutDonePacksAndStarts_closed :
    Listens 0 remnantCut ∧ Steers 0 staK0 remnantCut ∧ (remnantCut.station staK0).lot ≠ none ∧
      remnantCut.arbor .a = .busy .cutting { coil with remnant := true } ∧ remnantCut.arbor .b = .free ∧
      HasLot remnantCut 1 { rope8 with state := .closed } ∧ coil.lot = rope8.number ∧ rope8.build = .rope rope8Terms ∧
      remnantCut.rope = some rope8Terms ∧ (remnantCut.station staC0).state = .halted := by decide

def bothArborsBusy : State :=
  coilerTo (fun k => { k with b := .busy .packing coil }) cutDonePacksAndStarts1
theorem witness_CutDonePacksAndStarts_refused :
    (Listens 0 works ∧ Steers 0 staC0 works ∧ staC0 ≠ staK0) ∧ (Steers 0 staK0 works ∧ (2 : Byte) ≠ 0 ∧ (2 : Byte) ≠ 1) ∧
    (Listens 0 (atRest 7 works) ∧ Steers 0 staK0 (atRest 7 works) ∧ ((atRest 7 works).station staK0).lot = none) ∧
    (works.arbor .a = .busy .winding coil) ∧
    (Listens 0 bothArborsBusy ∧ Steers 0 staK0 bothArborsBusy ∧ (bothArborsBusy.station staK0).lot ≠ none ∧
      bothArborsBusy.arbor .a = .busy .cutting { coil with length := ⟨2100, 700⟩ } ∧ cutLine bothArborsBusy = false) :=
  ⟨by decide, by decide, by decide, by decide, by decide⟩

def packAndTakePostCoils1 : State :=
  coilerTo (fun k =>
    { k with a := .busy .packing { coil with tag := some 50, seq := 3 }, b := .free, outbound := (List.range 11).map fun j => { coil with tag := some (200 + j), seq := j } })
    works
def packAndTakePostCoils2 : State :=
  coilerTo (fun k =>
    { k with a := .busy .packing { coil with tag := some 50, seq := 3 }, b := .free, outbound := (List.range 12).map fun j => { coil with tag := some (200 + j), seq := j } })
    works
def packAndTakePostCoils3 : State :=
  coilerTo (fun k =>
    { k with a := .busy .packing { coil with tag := none, seq := 3 }, b := .free, outbound := (List.range 0).map fun j => { coil with tag := some (200 + j), seq := j } })
    works
def packAndTakePostCoils4 : State :=
  coilerTo (fun k =>
    { k with a := .busy .posting { coil with tag := some 50, seq := 3 }, b := .free, outbound := (List.range 12).map fun j => { coil with tag := some (200 + j), seq := j } })
    works
def packAndTakePostCoils5 : State :=
  causes 4 0x600 (inState 4 .halted (coilerTo (fun k =>
    { k with a := .busy .packing { coil with tag := some 50, seq := 3 }, b := .busy .cutting coil, outbound := (List.range 8).map fun j => { coil with tag := some (200 + j), seq := j } })
    works))
theorem witness_PackAndTakePostCoils :
    (Listens 0 works ∧ Steers 0 staK0 works ∧ (works.station staK0).lot ≠ none ∧ works.arbor .b = .free ∧
      works.coiler.outbound = []) ∧
    (Listens 0 packAndTakePostCoils1 ∧ Steers 0 staK0 packAndTakePostCoils1 ∧ packAndTakePostCoils1.arbor .a = .busy
      .packing { coil with tag := some 50, seq := 3 } ∧ packAndTakePostCoils1.coiler.outbound.length < 12 ∧
      packAndTakePostCoils1.coiler.outbound ≠ []) ∧
    (Listens 0 packAndTakePostCoils2 ∧ Steers 0 staK0 packAndTakePostCoils2 ∧ packAndTakePostCoils2.arbor .a = .busy
      .packing { coil with tag := some 50, seq := 3 } ∧ 12 ≤ packAndTakePostCoils2.coiler.outbound.length) ∧
    (Listens 0 packAndTakePostCoils3 ∧ Steers 0 staK0 packAndTakePostCoils3 ∧ packAndTakePostCoils3.arbor .a = .busy
      .packing { coil with tag := none, seq := 3 }) ∧
    (Listens 0 packAndTakePostCoils4 ∧ Steers 0 staK0 packAndTakePostCoils4 ∧ packAndTakePostCoils4.arbor .a = .busy
      .posting { coil with tag := some 50, seq := 3 } ∧ packAndTakePostCoils4.coiler.outbound ≠ []) ∧
    (Listens 0 packAndTakePostCoils5 ∧ Steers 0 staK0 packAndTakePostCoils5 ∧ packAndTakePostCoils5.arbor .a = .busy
      .packing { coil with tag := some 50, seq := 3 } ∧ (packAndTakePostCoils5.arbor (ArborId.other .a)).isCutting =
      true ∧ hasCause (packAndTakePostCoils5.station staC0).causes .arborBusy = true) :=
  ⟨by decide, by decide, by decide, by decide, by decide, by decide⟩

def tagsLoadWhole1 : State := coilerTo (fun k => { k with tags := (List.range 25).map (· + 300) }) works
def tagsLoadWhole2 : State := coilerTo (fun k => { k with a := .busy .packing coil, tags := [] }) works
theorem witness_TagsLoadWhole :
    (Listens 0 works ∧ (0 : Byte).toNat = 0) ∧
    (Listens 0 works ∧ 8 < (9 : Byte).toNat) ∧
    (Listens 0 works ∧ 100 ∈ tagsOf works.coiler) ∧
    (Listens 0 works ∧ 1 ≤ (8 : Byte).toNat ∧ (8 : Byte).toNat ≤ 8 ∧ [1, 2, 3, 4, 5, 6, 7, 8].Nodup ∧ (∀ t ∈
      [1, 2, 3, 4, 5, 6, 7, 8], t ∉ tagsOf works.coiler) ∧ works.coiler.tags.length + 8 ≤ 32 ∧ works.arbor .a = .busy
      .winding coil ∧ works.arbor .b = .free) ∧
    (Listens 0 tagsLoadWhole1 ∧ 32 < tagsLoadWhole1.coiler.tags.length + 8) ∧
    (Listens 0 tagsLoadWhole2 ∧ tagsLoadWhole2.arbor .a = .busy .packing coil ∧ coil.tag = none ∧ tagsLoadWhole2.arbor
      .b = .free ∧ tagsLoadWhole2.coiler.tags ++ [1] = 1 :: []) :=
  ⟨by decide, by decide, by decide, by decide, by decide, by decide⟩

def routingAttentionCommit1 : State :=
  settingsTo (fun c => { c with attn := 0 })
    { works with commit := some { snapshot := works.settings, sender := some 2 } }
def routingAttentionCommit2 : State := { works with commit := some { snapshot := works.settings, sender := some 2 } }
def routingAttentionCommit3 : State := { works with commit := some { snapshot := works.settings, sender := none } }
theorem witness_RoutingAttentionCommit :
    (Listens 0 works ∧ works.commit = none ∧ (15 : Byte).toNat < 16 ∧ (19 : Nat) < (20 : Byte).toNat ∧ (15 : Nat) <
      (16 : Byte).toNat ∧ (1 : Nat) < (2 : Byte).toNat) ∧
    (({ works with commit := some { snapshot := works.settings, sender := some 2 } }).commit ≠ none) ∧
    (works.power = .running ∧ works.commit = none) ∧
    (routingAttentionCommit2.power = .running ∧ routingAttentionCommit2.commit = some
      { snapshot := works.settings, sender := some 2 }) ∧
    (routingAttentionCommit3.power = .running ∧ routingAttentionCommit3.commit = some
      { snapshot := works.settings, sender := none }) :=
  ⟨by decide, by decide, by decide, by decide, by decide⟩

def settingsAreWrittenWhole1 : State :=
  (works.setChannel 2 { raw := true, level := false, pending := some (true, 1) }).setChannel 3
    { raw := true, level := false, pending := some (true, 1) }
theorem witness_SettingsAreWrittenWhole :
    (Listens 0 works ∧ writePairs Settings.write [(1, 4)] works.settings false = none) ∧
    (Listens 0 works ∧ (works.station (loomSta 1)).lot = none ∧ (writePairs Settings.write [(10, 20)] works.settings
      false).isSome = true) ∧
    (Listens 0 works ∧ (works.station (loomSta 0)).lot ≠ none ∧ (writePairs Settings.write [(9, 20)] works.settings
      false).isSome = true) ∧
    (Listens 0 works ∧ (writePairs Settings.writeCal [(0, 1), (32, 5)] works.settings false).isSome = true ∧ calMoving
      works (0, 1) = true) ∧
    (Listens 0 works ∧ writePairs Settings.writeCal [(11, 0)] works.settings false = none) ∧
    (Listens 0 settingsAreWrittenWhole1 ∧ (writePairs Settings.writeCal [(2, 3), (19, 2), (33, 300)]
      settingsAreWrittenWhole1.settings false).isSome = true ∧ calMoving settingsAreWrittenWhole1 (2, 3) = false ∧
      calMoving settingsAreWrittenWhole1 (19, 2) = false ∧ calMoving settingsAreWrittenWhole1 (33, 300) = false) :=
  ⟨by decide, by decide, by decide, by decide, by decide, by decide⟩

/-- P1 quiet for 5 s with its period OFF, and S0's window open as long. -/
def quiet : State :=
  { settingsTo (fun c => { c with silence := .replicate 4 .off })
      (layTo 0 (fun w => { w with isOpen := true, openMs := 0 }) works) with now := 5000000 }
theorem witness_SettingsAreWrittenWhole_overdue :
    (Listens 0 quiet ∧ (quiet.port 1).live = true ∧ ((writePairs Settings.write [(14, 1)] quiet.settings false).map
      fun r => (r.1.silence[(1 : Port)]).ms) = some (some 200) ∧ 200 ≤ (quiet.nowMs - (quiet.port 1).lastValidMs) % 4294967296) ∧
    ((quiet.station (twiSta 0)).state = .steady ∧ (quiet.twist 0).lay.isOpen = true ∧
      ((writePairs Settings.write [(7, 0), (2, 1)] quiet.settings false).map
        fun r => (r.1.windowLimit, r.1.haltEnable.getLsbD 2)) = some (1, false) ∧
      (quiet.twist 0).lay.openMs + 1 * 1000 ≤ quiet.nowMs) :=
  ⟨by decide, by decide⟩

/-- The same with S1 bound to P1. -/
def quietS1 : State := boundTo 1 (some 1) quiet
theorem witness_SettingsAreWrittenWhole_silenced :
    let wrote := writePairs Settings.write [(14, 1), (2, 1)] quietS1.settings false
    Listens 0 quietS1 ∧ wrote.map (fun r => (r.1.haltEnable.getLsbD 2, r.1.silence[(1 : Port)], r.1.windowLimit)) =
        some (true, .ms200, 1) ∧
      (quietS1.port 1).live = true ∧ 200 ≤ (quietS1.nowMs - (quietS1.port 1).lastValidMs) % 4294967296 ∧
      Steers 1 1 quietS1 ∧ ¬ Steers 1 0 quietS1 ∧ (quietS1.station 0).state = .steady ∧ (quietS1.twist 0).lay.isOpen = true ∧
      (quietS1.twist 0).lay.openMs + 1 * 1000 ≤ quietS1.nowMs := by decide

def silenceBeginsAndEnds1 : State :=
  portTo 0 (fun u => { u with lastValidMs := 3 }) (settingsTo (fun c =>
    { c with silence := .replicate 4 .off, haltEnable := 0b101 }) works)
def silenceBeginsAndEnds2 : State :=
  portTo 0 (fun u => { u with lastValidMs := 3 }) (settingsTo (fun c =>
    { c with silence := .replicate 4 .off, haltEnable := 0b011 }) works)
def silenceBeginsAndEnds3 : State :=
  portTo 0 (fun u => { u with lastValidMs := 3 }) (settingsTo (fun c =>
    { c with silence := .replicate 4 .ms200, haltEnable := 0b101 }) works)
def silenceBeginsAndEnds4 : State :=
  portTo 0 (fun u => { u with lastValidMs := 3 }) (settingsTo (fun c =>
    { c with silence := .replicate 4 .ms200, haltEnable := 0b011 }) works)
def silenceBeginsAndEnds5 : State :=
  portTo 0 (fun u => { u with lastValidMs := 3 }) (settingsTo (fun c =>
    { c with silence := .replicate 4 .ms500, haltEnable := 0b101 }) works)
def silenceBeginsAndEnds6 : State :=
  portTo 0 (fun u => { u with lastValidMs := 3 }) (settingsTo (fun c =>
    { c with silence := .replicate 4 .ms500, haltEnable := 0b011 }) works)
def silenceBeginsAndEnds7 : State :=
  portTo 0 (fun u => { u with lastValidMs := 3 }) (settingsTo (fun c =>
    { c with silence := .replicate 4 .ms1000, haltEnable := 0b101 }) works)
def silenceBeginsAndEnds8 : State :=
  portTo 0 (fun u => { u with lastValidMs := 3 }) (settingsTo (fun c =>
    { c with silence := .replicate 4 .ms1000, haltEnable := 0b011 }) works)
def silenceBeginsAndEnds9 : State :=
  portTo 0 (fun u => { u with lastValidMs := 3 }) (settingsTo (fun c =>
    { c with silence := .replicate 4 .ms2000, haltEnable := 0b101 }) works)
def silenceBeginsAndEnds10 : State :=
  portTo 0 (fun u => { u with lastValidMs := 3 }) (settingsTo (fun c =>
    { c with silence := .replicate 4 .ms2000, haltEnable := 0b011 }) works)
def silenceBeginsAndEnds11 : State := portTo 1 (fun u => { u with live := false }) works
theorem witness_SilenceBeginsAndEnds :
    (silenceBeginsAndEnds1.power = .running ∧ (silenceBeginsAndEnds1.port 0).live = true ∧
      silenceBeginsAndEnds1.settings.silence[(0 : Port)] = .off ∧ silenceBeginsAndEnds1.settings.haltEnable.getLsbD 2
      = true) ∧
    (silenceBeginsAndEnds2.power = .running ∧ (silenceBeginsAndEnds2.port 0).live = true ∧
      silenceBeginsAndEnds2.settings.silence[(0 : Port)] = .off ∧ silenceBeginsAndEnds2.settings.haltEnable.getLsbD 2
      = false) ∧
    (silenceBeginsAndEnds3.power = .running ∧ (silenceBeginsAndEnds3.port 0).live = true ∧
      silenceBeginsAndEnds3.settings.silence[(0 : Port)] = .ms200 ∧ silenceBeginsAndEnds3.settings.haltEnable.getLsbD
      2 = true) ∧
    (silenceBeginsAndEnds4.power = .running ∧ (silenceBeginsAndEnds4.port 0).live = true ∧
      silenceBeginsAndEnds4.settings.silence[(0 : Port)] = .ms200 ∧ silenceBeginsAndEnds4.settings.haltEnable.getLsbD
      2 = false) ∧
    (silenceBeginsAndEnds5.power = .running ∧ (silenceBeginsAndEnds5.port 0).live = true ∧
      silenceBeginsAndEnds5.settings.silence[(0 : Port)] = .ms500 ∧ silenceBeginsAndEnds5.settings.haltEnable.getLsbD
      2 = true) ∧
    (silenceBeginsAndEnds6.power = .running ∧ (silenceBeginsAndEnds6.port 0).live = true ∧
      silenceBeginsAndEnds6.settings.silence[(0 : Port)] = .ms500 ∧ silenceBeginsAndEnds6.settings.haltEnable.getLsbD
      2 = false) ∧
    (silenceBeginsAndEnds7.power = .running ∧ (silenceBeginsAndEnds7.port 0).live = true ∧
      silenceBeginsAndEnds7.settings.silence[(0 : Port)] = .ms1000 ∧ silenceBeginsAndEnds7.settings.haltEnable.getLsbD
      2 = true) ∧
    (silenceBeginsAndEnds8.power = .running ∧ (silenceBeginsAndEnds8.port 0).live = true ∧
      silenceBeginsAndEnds8.settings.silence[(0 : Port)] = .ms1000 ∧ silenceBeginsAndEnds8.settings.haltEnable.getLsbD
      2 = false) ∧
    (silenceBeginsAndEnds9.power = .running ∧ (silenceBeginsAndEnds9.port 0).live = true ∧
      silenceBeginsAndEnds9.settings.silence[(0 : Port)] = .ms2000 ∧ silenceBeginsAndEnds9.settings.haltEnable.getLsbD
      2 = true) ∧
    (silenceBeginsAndEnds10.power = .running ∧ (silenceBeginsAndEnds10.port 0).live = true ∧
      silenceBeginsAndEnds10.settings.silence[(0 : Port)] = .ms2000 ∧
      silenceBeginsAndEnds10.settings.haltEnable.getLsbD 2 = false) ∧
    ((silenceBeginsAndEnds11.port 1).live = false ∧ silenceBeginsAndEnds11.power = .running) :=
  ⟨by decide, by decide, by decide, by decide, by decide, by decide, by decide, by decide, by decide, by decide, by
    decide⟩

theorem witness_SupplyLowSavesAStoppedPart :
    (StationsOk works ∧ works.power = .running ∧ (works.station 0).lot ≠ none ∧ ∀ j : Strander, hasCause
      (works.station (strSta j)).causes .bobbinFull = false) ∧
    (nothingIsTakenFromSupplyLow2.power = .saving) ∧
    (nothingIsTakenFromSupplyLow3.power = .saved) ∧
    (nothingIsTakenFromSupplyLow1.power = .off) :=
  ⟨by unfold StationsOk StationOk; decide, by decide, by decide, by decide⟩

/-- S0 runs down under BOBBIN_FULL with the last bobbin of its lot, with a RESET assertion held. -/
def lastFillRuns : State :=
  { lotTo 0 (fun l => { l with started := 3, done := 2 }) (causes 0 0x020 (inState 0 .runDown works)) with
    resetPin := .held 77 }
theorem witness_SupplyLowSavesAStoppedPart_fill :
    StationsOk lastFillRuns ∧ BobbinsOk lastFillRuns ∧ lastFillRuns.power = .running ∧
      (fillsEnding lastFillRuns).map Bobbin.id = [1] ∧ HasLot lastFillRuns 0 { strand7 with started := 3, done := 2 } ∧
      (([{ bobbin 1 .winding none with wound := ⟨1000, 0⟩ }].foldl filled { strand7 with started := 3, done := 2 }).state =
        .complete) :=
  ⟨by unfold StationsOk StationOk; decide, by unfold BobbinsOk BobbinTableOk BobbinOk; decide, by decide, by decide,
    by decide, by decide⟩

def startsRestoreOrClear1 : State :=
  { works with power := .saving, supplyGood := true, imageValid := true, image := works.toImage, store := { valid := true, copy := works.settings }, resetPin := .released }
def startsRestoreOrClear2 : State :=
  { works with power := .saving, supplyGood := false, imageValid := false, image := works.toImage, store := { valid := false, copy := works.settings }, resetPin := .held 5 }
def startsRestoreOrClear3 : State :=
  { works with power := .saved, supplyGood := true, imageValid := true, image := works.toImage, store := { valid := true, copy := works.settings }, resetPin := .released }
def startsRestoreOrClear4 : State :=
  { works with power := .saved, supplyGood := false, imageValid := false, image := works.toImage, store := { valid := false, copy := works.settings }, resetPin := .held 5 }
def startsRestoreOrClear5 : State :=
  { works with power := .off, supplyGood := true, imageValid := true, image := works.toImage, store := { valid := true, copy := works.settings }, resetPin := .released }
def startsRestoreOrClear6 : State :=
  { works with power := .off, supplyGood := false, imageValid := false, image := works.toImage, store := { valid := false, copy := works.settings }, resetPin := .held 5 }
theorem witness_StartsRestoreOrClear :
    (startsRestoreOrClear1.power = .saving ∧ startsRestoreOrClear1.supplyGood = true ∧
      startsRestoreOrClear1.imageValid = true) ∧
    (startsRestoreOrClear2.power = .saving ∧ startsRestoreOrClear2.supplyGood = false ∧
      startsRestoreOrClear2.imageValid = false) ∧
    (startsRestoreOrClear3.power = .saved ∧ startsRestoreOrClear3.supplyGood = true ∧ startsRestoreOrClear3.imageValid
      = true) ∧
    (startsRestoreOrClear4.power = .saved ∧ startsRestoreOrClear4.supplyGood = false ∧
      startsRestoreOrClear4.imageValid = false) ∧
    (startsRestoreOrClear5.power = .off ∧ startsRestoreOrClear5.supplyGood = true ∧ startsRestoreOrClear5.imageValid =
      true) ∧
    (startsRestoreOrClear6.power = .off ∧ startsRestoreOrClear6.supplyGood = false ∧ startsRestoreOrClear6.imageValid
      = false) :=
  ⟨by decide, by decide, by decide, by decide, by decide, by decide⟩

def resetStopsAndKeeps1 : State := { works with resetPin := .spent }
def resetStopsAndKeeps2 : State :=
  { inState 5 .rowHold works with resetPin := .held 77, meter := { works.meter with stall := true }, commit := some { snapshot := works.settings, sender := some 1 } }
theorem witness_ResetStopsAndKeeps :
    (works.resetPin = .released ∧ works.power = .running) ∧
    (nothingIsTakenFromSupplyLow1.resetPin = .released ∧ nothingIsTakenFromSupplyLow1.power ≠ .running) ∧
    (resetStopsAndKeeps1.resetPin ≠ .released) ∧
    (resetStopsAndKeeps2.resetPin = .held 77 ∧ resetStopsAndKeeps2.power = .running ∧ StationsOk resetStopsAndKeeps2) :=
  ⟨by decide, by decide, by decide, by unfold StationsOk StationOk; decide⟩

theorem witness_ResetStopsAndKeeps_fill :
    lastFillRuns.resetPin = .held 77 ∧ lastFillRuns.power = .running ∧ StationsOk lastFillRuns ∧ BobbinsOk lastFillRuns ∧
      (fillsEnding lastFillRuns).map Bobbin.id = [1] :=
  ⟨by decide, by decide, by unfold StationsOk StationOk; decide, by unfold BobbinsOk BobbinTableOk BobbinOk; decide,
    by decide⟩

/-! ### The invariants: a state at work meets each, and takes a step -/

theorem witness_StepKeepsNoticesOk : NoticesOk works ∧ ∃ t, step { works with pending := [.supplyLow] } = .next t :=
  ⟨by unfold NoticesOk QueueOk; decide, ⟨_, rfl⟩⟩

theorem witness_StepKeepsBobbinsOk :
    BobbinsOk works ∧ ∃ t, step { works with pending := [.bobbinRemove 0 10] } = .next t :=
  ⟨by unfold BobbinsOk BobbinTableOk BobbinOk; decide, ⟨_, rfl⟩⟩

/-- The lots of a table without records. -/
theorem noLots_ok : LotTableOk (.replicate 16 none) := by
  constructor
  · intro j k a b ha
    simp at ha
  · intro k a ha
    simp at ha

/-- The lots of `works` hold different numbers. -/
theorem worksNumbers_differ : ∀ j k : Slot, (works.lots[j]).map Lot.number = (works.lots[k]).map Lot.number →
    (works.lots[j]).isSome = true → j = k := by decide

/-- The same of two of its records. -/
theorem worksLots_differ (j k : Slot) (a b : Lot) (ha : works.lots[j] = some a) (hb : works.lots[k] = some b)
    (h : a.number = b.number) : j = k := by
  exact worksNumbers_differ j k (by rw [ha, hb]; simp [h]) (by rw [ha]; rfl)

/-- The lots of `works`. -/
theorem worksLots_are : ∀ k : Slot, works.lots[k] = none ∨ works.lots[k] = some strand7 ∨ works.lots[k] = some rope8 ∨
    works.lots[k] = some net9 := by decide

/-- The constructions of `works` are in their ranges. -/
theorem strand7_ok : BuildOk (.strand strand7Terms) := by simp only [BuildOk]; decide
theorem rope8_ok : BuildOk (.rope rope8Terms) := by simp only [BuildOk]; decide
theorem net9_ok : BuildOk (.net net9Terms) := by simp only [BuildOk]; decide

/-- The lots of `works` are in their ranges. -/
theorem worksLots_inRange (k : Slot) (a : Lot) (h : works.lots[k] = some a) :
    1 ≤ a.number ∧ a.number ≤ 65535 ∧ BuildOk a.build ∧ a.started ≤ a.build.ordered := by
  rcases worksLots_are k with h' | h' | h' | h' <;> rw [h] at h' <;> cases h'
  · exact ⟨by decide, by decide, strand7_ok, by decide⟩
  · exact ⟨by decide, by decide, rope8_ok, by decide⟩
  · exact ⟨by decide, by decide, net9_ok, by decide⟩

theorem witness_StepKeepsLotsAndSettingsOk :
    LotsOk works ∧ SettingsOk works ∧ ∃ t, step { works with pending := [.lotHold 0 7] } = .next t := by
  refine ⟨⟨⟨worksLots_differ, worksLots_inRange⟩, noLots_ok⟩, ⟨?_, ?_, ?_, ?_⟩, ⟨_, rfl⟩⟩
  · unfold SettingsInRange; decide
  · unfold SettingsInRange; decide
  · unfold SettingsInRange; decide
  · intro x h; exact absurd h (by simp [works, bound, State.reset])

theorem witness_StepKeepsStationsOk :
    StationsOk works ∧ CoilerHaltOk works ∧ ∃ t, step { works with pending := [.supplyLow] } = .next t :=
  ⟨by unfold StationsOk StationOk; decide, by unfold CoilerHaltOk CoilerHaltExact; decide, ⟨_, rfl⟩⟩

theorem witness_StepKeepsCoilerOk :
    ListsOk works ∧ TagsOk works ∧ StationsOk works ∧ ArborsOk works ∧
      ∃ t, step { works with pending := [.coilTake 0] } = .next t :=
  ⟨by unfold ListsOk CoilerListsOk; decide, by unfold TagsOk; decide, by unfold StationsOk StationOk; decide,
    by unfold ArborsOk ArborsShare; decide, ⟨_, rfl⟩⟩

/-! ## Ill-formed commands are refused -/

theorem test_wf_faultClear_names_no_all : (Instr.faultClear 0 0xFF).wf = false := by decide
theorem test_wf_lotWrite_without_pairs : (Instr.lotWrite 0 7 []).wf = false := by decide
theorem test_wf_lotWrite_of_13_pairs : (Instr.lotWrite 0 7 (List.replicate 13 (1, 0))).wf = false := by decide
theorem test_wf_settingsWrite_without_pairs : (Instr.settingsWrite 0 []).wf = false := by decide
theorem test_wf_settingsWrite_of_13_pairs : (Instr.settingsWrite 0 (List.replicate 13 (1, 0))).wf = false := by decide
theorem test_wf_calWrite_without_pairs : (Instr.calWrite 0 []).wf = false := by decide
theorem test_wf_calWrite_of_13_pairs : (Instr.calWrite 0 (List.replicate 13 (1, 0))).wf = false := by decide
theorem test_wf_unknownRequest_of_a_known_kind : (Instr.unknownRequest 0 0x05 []).wf = false := by decide
theorem test_wf_unknownRequest_too_long : (Instr.unknownRequest 0 0xEE (List.replicate 65 0)).wf = false := by decide
theorem test_wf_whole_commands : (Instr.unknownRequest 0 0xEE [1]).wf = true ∧
    (Instr.lotWrite 0 7 (List.replicate 12 (1, 0))).wf = true ∧ (Instr.faultClear 0 7).wf = true := by decide

/-! ## Worked cases and figures of the spec -/

/-- 03_lay_measurement.md, A steady window on S2. -/
theorem test_steady_window : layOf 1880000 16 = 1175 ∧ errorOf 1175 1150 = 21 ∧ filterOf false (some 12) 21 = 14 := by
  decide

/-- 03_lay_measurement.md, Run-up, seeding and the lag of the filter. -/
theorem test_run_up_windows : layOf 965000 10 = 965 ∧ errorOf 965 1000 = -35 ∧ filterOf true none (-35) = -35 ∧
    filterOf false (some (-35)) (-18) = -31 ∧ filterOf false (some (-31)) (-12) = -27 ∧
    filterOf false (some (-27)) (-5) = -22 ∧ filterOf false (some (-22)) (-4) = -18 := by decide

/-- 03_lay_measurement.md, Clamped lay, clamped error and the filter walking. -/
theorem test_clamped_windows : layOf 27000000 4 = 65535 ∧ errorOf 65535 2000 = 999 ∧ filterOf false (some 10) 999 = 257 ∧
    filterOf false (some 257) 999 = 442 ∧ filterOf false (some 442) 999 = 581 := by decide

/-- 07_rope_metering_and_slip.md, Slip windows over one coil. -/
theorem test_slip_windows : slipOf 10000000 9962000 = 3 ∧ slipOf 10000000 9850000 = 15 ∧ slipOf 10000000 10021000 = -2 ∧
    slipOf 10000000 10150000 = -15 ∧ slipOf 10000760 9962000 = 3 ∧ greaterSlip (some 15) (-15) = 15 := by decide

/-- 06_knotting_mesh_plans_and_the_row_exchange.md, A tapered segment on L0: row 3 of a segment that narrows both edges. -/
theorem test_taper_narrows : taperRange { inRow with first := 40, last := 139 }
    { Segment.cold with left := .inward, right := .inward } 200 = (41, 138, false) := by decide

/-- The same chapter, Edge clamp, a hold and a deferred panel end on L1: both edges clamp at 0..63. -/
theorem test_taper_clamps : taperRange { inRow with first := 0, last := 63 }
    { Segment.cold with left := .outward, right := .outward } 64 = (0, 63, true) := by decide

/-- The same chapter: 79 knots of 61 and 14 mm draw 5,925 mm. -/
theorem test_odd_draw : rowDraw { inRow with first := 1, last := 79 } { net9Terms with mesh := 61, knot := 14 } = 5925 := by
  decide

/-- R102, R104: a step byte is 0xFF, 0x00 or 0x01 and no other. -/
theorem test_step_bytes : TaperStep.ofByte 0xFF = some .inward ∧ TaperStep.ofByte 0 = some TaperStep.none ∧
    TaperStep.ofByte 1 = some .outward ∧ TaperStep.ofByte 2 = none := by decide

/-- R160: a frame's body followed by its CRC byte leaves the register 0x00. -/
theorem test_crc8_closes : crc8 [0x01, 0x01, 0x04, crc8 [0x01, 0x01, 0x04]] = 0 := by decide

/-- 01_stations_pulse_inputs_and_length_counting.md, Carry at work: four edges of 1,337 µm. -/
theorem test_carry_at_work : Len.zero.add 1337 = ⟨1, 337⟩ ∧ (Len.mk 1 337).add 1337 = ⟨2, 674⟩ ∧
    (Len.mk 2 674).add 1337 = ⟨4, 11⟩ ∧ (Len.mk 4 11).add 1337 = ⟨5, 348⟩ := by decide

/-- R20: past 4,294,967,295 mm a length stays there with carry 999 µm. -/
theorem test_length_saturates : (Len.mk 4294967294 600).add 1337 = ⟨4294967295, 937⟩ ∧
    (Len.mk 4294967295 937).add 1337 = ⟨4294967295, 999⟩ := by decide

/-- Time is taken modulo 2^32 ms (00_scope.md): P1, quiet and OFF for 2^32 + 100 ms, stays LIVE when a period of 200 ms is
written, and falls silent 100 ms later (R171). -/
theorem test_silence_modulo :
    (settingsTaken (· == 14) { settingsTo (fun c => { c with silence := .replicate 4 .ms200 }) quiet with
      now := 4294967396000 } |>.port 1).live = true ∧
    (settingsTaken (· == 14) { settingsTo (fun c => { c with silence := .replicate 4 .ms200 }) quiet with
      now := 4294967496000 } |>.port 1).live = false := by decide

/-- R54's and R55's own figures: 65,535 against 2,000, 1 against 60,000, 1,150 and 20; differences of +9 and -9. -/
theorem test_clamps_and_filter :
    errorOf 65535 2000 = 999 ∧ errorOf 1 60000 = -999 ∧ errorOf 1 1150 = -999 ∧ errorOf 1 20 = -950 ∧
      filterOf false (some 0) 9 = 2 ∧ filterOf false (some 0) (-9) = -2 := by decide

end Sys2Proof.Tests
end

section
/-! The sets of causes, and the station records: what a move does to a record that is in order (R1, R4 to R7). -/

namespace Sys2Proof.Laws

open Sys2Proof.Machine Sys2Proof.Safety

/-! ## Sets of causes -/

theorem has_add {n : Nat} (x : BitSet n) (i j : Nat) : (x.add i).has j = (x.has j || (decide (i < n) && decide (i = j))) := by
  simp [BitSet.has, BitSet.add, BitVec.getLsbD_twoPow]

theorem has_del {n : Nat} (x : BitSet n) (i j : Nat) : (x.del i).has j = (x.has j && !decide (i = j)) := by
  by_cases h : j < n
  · by_cases e : i = j
    · subst e; simp [BitSet.has, BitSet.del, h]
    · simp [BitSet.has, BitSet.del, h, e, Ne.symm e]
  · simp [BitSet.has, BitVec.getLsbD_of_ge _ _ (Nat.not_lt.mp h)]

@[simp] theorem zero_has {n : Nat} (i : Nat) : BitSet.has (0#n) i = false := BitVec.getLsbD_zero

theorem Cause.idx_lt (c : Cause) : c.idx < 12 := by cases c <;> decide

theorem allCauses_idx (c : Cause) : allCauses[c.idx]? = some c := by cases c <;> rfl

theorem Cause.idx_inj {c d : Cause} : c.idx = d.idx ↔ c = d := by
  refine ⟨fun h => Option.some.inj ?_, fun h => by rw [h]⟩
  rw [← allCauses_idx c, ← allCauses_idx d, h]

theorem hasCause_add (x : BitSet 12) (c d : Cause) : hasCause (x.add c.idx) d = (hasCause x d || decide (c = d)) := by
  simp [hasCause, has_add, Cause.idx_lt, Cause.idx_inj]

theorem hasCause_del (x : BitSet 12) (c d : Cause) : hasCause (x.del c.idx) d = (hasCause x d && !decide (c = d)) := by
  simp [hasCause, has_del, Cause.idx_inj]

theorem add_ne_zero (x : BitSet 12) (c : Cause) : x.add c.idx ≠ 0 := by
  intro h
  have := hasCause_add x c c
  rw [h] at this
  simp [hasCause] at this

theorem ne_zero_of_hasCause {x : BitSet 12} {c : Cause} (h : hasCause x c = true) : x ≠ 0 := by
  intro e
  rw [e] at h
  simp [hasCause] at h

theorem del_eq_zero {x : BitSet 12} (k : Nat) (h : x = 0) : x.del k = 0 := by
  subst h; simp [BitSet.del]

/-! ## Station records in order, but for a move that R7 still owes -/

/-- A station record in order, except that it may be HALTED under an empty set: removals leave it so until R7 moves it. -/
def LooseOk (i : Sta) (r : Station) : Prop :=
  stateOfKind (kindOf i) r.state = true ∧
    (r.lot = none → r.state = .halted ∨ r.state = .idle ∧ r.causes = 0) ∧
    (r.lot ≠ none → r.state ≠ .idle ∧
      (r.state = .standby ∨ r.state = .runUp ∨ r.state = .steady ∨ r.state = .knotting ∨ r.state = .active → r.causes = 0))

theorem stationOk_iff (i : Sta) (r : Station) : StationOk i r ↔ LooseOk i r ∧ (r.state = .halted → r.causes ≠ 0) := by
  unfold StationOk LooseOk
  by_cases hl : r.lot = none
  · by_cases hc : r.causes = 0
    · simp only [hl, hc, if_true, true_imp_iff, ne_eq, not_true_eq_false, false_imp_iff, and_true, imp_false]
      cases r.state <;> simp
    · simp only [hl, hc, if_false, true_imp_iff, ne_eq, not_true_eq_false, not_false_eq_true, false_imp_iff, and_true,
        and_false, or_false, imp_true_iff]
  · simp only [hl, false_imp_iff, true_and, ne_eq, not_false_eq_true, true_imp_iff]
    tauto

/-- In the states that need an empty set the set is empty, whatever lot the record holds. -/
theorem LooseOk.quiet {i : Sta} {r : Station} (h : LooseOk i r)
    (hs : r.state = .standby ∨ r.state = .runUp ∨ r.state = .steady ∨ r.state = .knotting ∨ r.state = .active) :
    r.lot ≠ none ∧ r.causes = 0 := by
  obtain ⟨-, hn, hl⟩ := h
  have : r.lot ≠ none := by
    intro e
    rcases hn e with e' | ⟨e', -⟩ <;> rw [e'] at hs <;> simp at hs
  exact ⟨this, (hl this).2 hs⟩

/-- A station off IDLE and HALTED holds a lot. -/
theorem LooseOk.lot {i : Sta} {r : Station} (h : LooseOk i r) (hi : r.state ≠ .idle) (hh : r.state ≠ .halted) :
    r.lot ≠ none := fun e => by
  rcases h.2.1 e with e' | ⟨e', -⟩
  · exact hh e'
  · exact hi e'

/-- Nothing but the state, the causes and the lot counts. -/
theorem LooseOk.congr {i : Sta} {r r' : Station} (h : LooseOk i r) (hs : r'.state = r.state) (hc : r'.causes = r.causes)
    (hl : r'.lot = r.lot) : LooseOk i r' := by
  unfold LooseOk at h ⊢
  rw [hs, hc, hl]; exact h

theorem stateOfKind_halted (k : StationKind) : stateOfKind k .halted = true := by cases k <;> rfl

theorem LooseOk.halted {i : Sta} {r : Station} (h : r.state = .halted) : LooseOk i r := by
  refine ⟨?_, fun _ => .inl h, fun _ => ⟨?_, ?_⟩⟩ <;> rw [h]
  · exact stateOfKind_halted _
  · simp
  · simp

/-- The state of a station that a cause has been added to is one in which a set may hold causes (R5, R6). -/
theorem afterRaise_ok {i : Sta} {st : RunState} (h : stateOfKind (kindOf i) st = true) :
    stateOfKind (kindOf i) (afterRaise i st) = true ∧
      (afterRaise i st = .halted ∨ (afterRaise i st = .runDown ∨ afterRaise i st = .rowHold) ∧ st ≠ .idle) := by
  revert h
  cases st <;> revert i <;> decide

theorem LooseOk.raised {i : Sta} {r : Station} (h : LooseOk i r) (x : BitSet 12) (m : Option Nat) :
    LooseOk i { r with causes := x, state := afterRaise i r.state, retryUntilMs := m } := by
  obtain ⟨hk, hs⟩ := afterRaise_ok h.1
  rcases hs with hs | ⟨hs, hi⟩
  · exact .halted hs
  · refine ⟨hk, fun e => ?_, fun _ => ⟨?_, ?_⟩⟩
    · rcases h.2.1 e with e' | ⟨e', -⟩
      · refine .inl ?_
        rw [show r.state = .halted from e']
        rfl
      · exact absurd e' hi
    · rcases hs with hs | hs <;> rw [hs] <;> simp
    · rcases hs with hs | hs <;> rw [hs] <;> simp

theorem LooseOk.dropped {i : Sta} {r : Station} (h : LooseOk i r) (k : Nat) (m : Option Nat) :
    LooseOk i { r with causes := r.causes.del k, retryUntilMs := m } := by
  obtain ⟨hk, hn, hl⟩ := h
  refine ⟨hk, fun e => ?_, fun e => ⟨(hl e).1, fun hs => del_eq_zero k ((hl e).2 hs)⟩⟩
  rcases hn e with e' | ⟨e', e''⟩
  · exact .inl e'
  · exact .inr ⟨e', del_eq_zero k e''⟩

/-- The state a HALTED station with an empty set goes to is in order (R7). -/
theorem looseOk_rested (i : Sta) {r : Station} (hc : r.causes = 0) :
    LooseOk i { r with state := if r.lot.isSome then (if i = staK0 then .active else .standby) else .idle } := by
  have hk : ∀ j : Sta, stateOfKind (kindOf j) (if j = staK0 then .active else .standby) = true := by decide
  cases e : r.lot with
  | none => exact ⟨by cases kindOf i <;> rfl, fun _ => .inr ⟨rfl, hc⟩, fun h => absurd rfl h⟩
  | some n =>
    refine ⟨hk i, nofun, fun _ => ⟨?_, fun _ => hc⟩⟩
    simp only [Option.isSome_some, if_true]
    split <;> simp

/-- A station that holds a lot is in order in a state of its kind that its set allows. -/
theorem LooseOk.move {i : Sta} {r : Station} {st : RunState} (hk : stateOfKind (kindOf i) st = true) (hl : r.lot ≠ none)
    (hi : st ≠ .idle)
    (hq : st = .standby ∨ st = .runUp ∨ st = .steady ∨ st = .knotting ∨ st = .active → r.causes = 0) :
    LooseOk i { r with state := st } := ⟨hk, fun e => absurd e hl, fun _ => ⟨hi, hq⟩⟩

/-! ## Every station in order -/

/-- Every station record in order, but for the moves R7 owes on the stations of `o`. -/
def StFine (o : Set Sta) (s : State) : Prop :=
  (∀ i, LooseOk i (s.station i)) ∧ ∀ i, i ∉ o → (s.station i).state = .halted → (s.station i).causes ≠ 0

/-- With it, C0 carries COILER_HALT exactly while K0 is HALTED and C0 holds a lot (R4). -/
def Fine (o : Set Sta) (s : State) : Prop := StFine o s ∧ CoilerHaltExact s.stations

theorem StFine.mono {o o' : Set Sta} {s : State} (h : StFine o s) (ho : o ⊆ o') : StFine o' s :=
  ⟨h.1, fun i hi => h.2 i (fun h' => hi (ho h'))⟩

theorem Fine.mono {o o' : Set Sta} {s : State} (h : Fine o s) (ho : o ⊆ o') : Fine o' s := ⟨h.1.mono ho, h.2⟩

/-- The conditions on one station's record, and the others as they were. -/
theorem StFine.write {o o' : Set Sta} {s t : State} (h : StFine o s) (i : Sta) (hne : ∀ j, j ≠ i → t.station j = s.station j)
    (hi : LooseOk i (t.station i)) (hh : i ∉ o' → (t.station i).state = .halted → (t.station i).causes ≠ 0)
    (ho : ∀ j, j ≠ i → j ∉ o' → j ∉ o) : StFine o' t := by
  refine ⟨fun j => ?_, fun j hj => ?_⟩ <;> by_cases e : j = i
  · rw [e]; exact hi
  · rw [hne j e]; exact h.1 j
  · rw [e]; exact hh (e ▸ hj)
  · rw [hne j e]; exact h.2 j (ho j e hj)

theorem raiseOne_stFine {o : Set Sta} {s : State} (h : StFine o s) (i : Sta) (c : Cause) : StFine o (raiseOne i c s) := by
  by_cases hr : c.admissible (kindOf i) = false ∨ s.has i c = true
  · unfold raiseOne; rw [if_pos hr]; exact h
  · simp only [not_or, Bool.not_eq_false, Bool.not_eq_true] at hr
    have e := raiseOne_station i c s hr.1 hr.2
    refine h.write i (fun j hj => raiseOne_station_ne _ _ _ _ hj) ?_ ?_ (fun _ _ hj => hj)
    · rw [e]; exact (h.1 i).raised _ _
    · rw [e]; exact fun _ _ => add_ne_zero _ c

theorem dropCause_stFine {o : Set Sta} {s : State} (h : StFine o s) (i : Sta) (c : Cause) :
    StFine (insert i o) (dropCause i c s) := by
  by_cases hc : s.has i c = true
  · refine h.write i (fun j hj => dropCause_station_ne _ _ _ _ hj) ?_ (fun hj => absurd (Set.mem_insert i o) hj)
      (fun j _ hj hj' => hj (Set.mem_insert_of_mem _ hj'))
    rw [dropCause_station i c s hc]; exact (h.1 i).dropped _ _
  · unfold dropCause; rw [if_neg hc]; exact h.mono (Set.subset_insert i o)

theorem settleOne_stFine {o : Set Sta} {s : State} (h : StFine o s) (i : Sta) : StFine (o \ {i}) (settleOne i s) := by
  refine h.write i (fun j hj => settleOne_station_ne _ _ _ hj) ?_ ?_ (fun j hj hj' hj'' => hj' ⟨hj'', hj⟩)
  · rw [settleOne_station]
    split
    · next e => exact looseOk_rested i e.1
    · exact h.1 i
  · rw [settleOne_station]
    split
    · next e =>
      intro _ hh
      simp only [restState] at hh
      split at hh
      · split at hh <;> simp at hh
      · simp at hh
    · next e => exact fun _ hh hc => e ⟨hc, hh⟩

/-! ## K0 and COILER_HALT -/

/-- What CoilerHaltExact reads of a state. -/
theorem coilerHaltExact_iff (s : State) : CoilerHaltExact s.stations ↔
    (s.has staC0 .coilerHalt = true ↔ (s.station staK0).state = .halted ∧ (s.station staC0).lot ≠ none) := Iff.rfl

/-- A change that keeps K0's state, C0's lot and COILER_HALT on C0 keeps R4. -/
theorem coilerHaltExact_of_same {s t : State} (h : CoilerHaltExact s.stations)
    (hc : t.has staC0 .coilerHalt = s.has staC0 .coilerHalt) (hk : (t.station staK0).state = (s.station staK0).state)
    (hl : (t.station staC0).lot = (s.station staC0).lot) : CoilerHaltExact t.stations := by
  rw [coilerHaltExact_iff] at h ⊢
  rw [hc, hk, hl]; exact h

theorem raiseOne_lot (i j : Sta) (c : Cause) (s : State) : ((raiseOne i c s).station j).lot = (s.station j).lot :=
  (raiseOne_move i c s).lot j

/-- The raise of another cause on C0, or of any on another station, leaves COILER_HALT on C0 as it was. -/
theorem raiseOne_coilerHalt (i : Sta) (c : Cause) (s : State) (h : i = staC0 → c ≠ .coilerHalt) :
    (raiseOne i c s).has staC0 .coilerHalt = s.has staC0 .coilerHalt := by
  by_cases hr : c.admissible (kindOf i) = false ∨ s.has i c = true
  · unfold raiseOne; rw [if_pos hr]
  · simp only [not_or, Bool.not_eq_false, Bool.not_eq_true] at hr
    unfold State.has
    by_cases e : i = staC0
    · subst e
      rw [raiseOne_station _ c s hr.1 hr.2, hasCause_add, decide_eq_false (h rfl), Bool.or_false]
    · rw [raiseOne_station_ne _ _ _ _ (Ne.symm e)]

theorem afterRaise_staK0 {r : Station} (h : LooseOk staK0 r) : afterRaise staK0 r.state = .halted := by
  have := h.1
  revert this
  cases r.state <;> decide

/-- The raise of a cause keeps the stations in order (R2, R4 to R6). -/
theorem raiseCause_fine {o : Set Sta} {s : State} (h : Fine o s) (i : Sta) (c : Cause) (hc : c ≠ .coilerHalt) :
    Fine o (raiseCause i c s) := by
  have h1 := raiseOne_stFine h.1 i c
  by_cases hi : i = staK0
  · subst hi
    by_cases hr : c.admissible (kindOf staK0) = false ∨ s.has staK0 c = true
    · rw [raiseCause_idle _ _ _ hr]; exact h
    simp only [not_or, Bool.not_eq_false, Bool.not_eq_true] at hr
    have hk : ((raiseOne staK0 c s).station staK0).state = .halted := by
      rw [raiseOne_station _ c s hr.1 hr.2]; exact afterRaise_staK0 (h.1.1 staK0)
    have hb := raiseOne_coilerHalt staK0 c s (fun e => absurd e (by decide))
    have hl := raiseOne_lot staK0 staC0 c s
    have hx := (coilerHaltExact_iff s).mp h.2
    unfold raiseCause coilerHalted
    split
    · next e =>
      obtain ⟨hn, -, hlot⟩ := e
      have hno : s.has staC0 .coilerHalt = false := by
        rw [Bool.eq_false_iff, ne_eq, hx]; exact fun e => hn e.1
      refine ⟨raiseOne_stFine h1 _ _, (coilerHaltExact_iff _).mpr ?_⟩
      have e2 := raiseOne_station staC0 .coilerHalt (raiseOne staK0 c s) (by decide) (by rw [hb, hno])
      rw [State.has, e2, hasCause_add, raiseOne_station_ne staC0 staK0 _ _ (by decide), hk]
      simp [Option.isSome_iff_ne_none.mp hlot]
    · next e =>
      refine ⟨h1, (coilerHaltExact_iff _).mpr ?_⟩
      rw [hb, hx, hk, hl]
      simp only [hk, hl, true_and, not_and, Option.isSome_iff_ne_none] at e
      exact ⟨fun e' => ⟨rfl, e'.2⟩, fun e' => ⟨not_not.mp fun e'' => e e'' e'.2, e'.2⟩⟩
  · rw [raiseCause_eq_raiseOne _ _ _ hi]
    exact ⟨h1, coilerHaltExact_of_same h.2 (raiseOne_coilerHalt i c s (fun _ => hc))
      (by rw [raiseOne_station_ne _ _ _ _ (Ne.symm hi)]) (raiseOne_lot ..)⟩

theorem dropCause_lot (i j : Sta) (c : Cause) (s : State) : ((dropCause i c s).station j).lot = (s.station j).lot :=
  (dropCause_move i c s).lot j

theorem dropCause_state (i j : Sta) (c : Cause) (s : State) : ((dropCause i c s).station j).state = (s.station j).state := by
  by_cases e : j = i
  · subst e
    by_cases hc : s.has j c = true
    · rw [dropCause_station _ _ _ hc]
    · unfold dropCause; rw [if_neg hc]
  · rw [dropCause_station_ne _ _ _ _ e]

/-- What is left of a set after a removal, said of every cause of every station. -/
theorem dropCause_has (i j : Sta) (c d : Cause) (s : State) :
    (dropCause i c s).has j d = (s.has j d && !(decide (j = i) && decide (c = d))) := by
  by_cases e : j = i
  · subst e
    by_cases hc : s.has j c = true
    · unfold State.has at hc ⊢
      rw [dropCause_station _ _ _ hc, hasCause_del]; simp
    · unfold dropCause; rw [if_neg hc]
      by_cases ed : c = d
      · subst ed; simp only [Bool.not_eq_true] at hc; rw [hc]; rfl
      · simp [ed]
  · unfold State.has; rw [dropCause_station_ne _ _ _ _ e]; simp [e]

theorem dropCause_fine {o : Set Sta} {s : State} (h : Fine o s) (i : Sta) (c : Cause) (hc : c ≠ .coilerHalt) :
    Fine (insert i o) (dropCause i c s) :=
  ⟨dropCause_stFine h.1 i c,
    coilerHaltExact_of_same h.2 (by rw [dropCause_has]; simp [hc]) (dropCause_state ..) (dropCause_lot ..)⟩

theorem settleOne_lot (i j : Sta) (s : State) : ((settleOne i s).station j).lot = (s.station j).lot :=
  (settleOne_move i s).lot j

theorem settleOne_has (i j : Sta) (c : Cause) (s : State) : (settleOne i s).has j c = s.has j c := by
  unfold State.has
  by_cases e : j = i
  · subst e; rw [settleOne_station]; split <;> rfl
  · rw [settleOne_station_ne _ _ _ e]

/-- The move of R7, with what R4 adds for K0, pays what the station owed. -/
theorem settle_fine {o : Set Sta} {s : State} (h : Fine o s) (i : Sta) : Fine (o \ {i}) (settle i s) := by
  have h1 := settleOne_stFine h.1 i
  have hx := (coilerHaltExact_iff s).mp h.2
  have hb := settleOne_has i staC0 .coilerHalt s
  have hl := settleOne_lot i staC0 s
  unfold settle coilerReleased
  split
  · next e =>
    obtain ⟨-, hk, -⟩ := e
    refine ⟨(settleOne_stFine (dropCause_stFine h1 staC0 .coilerHalt) staC0).mono ?_, (coilerHaltExact_iff _).mpr ?_⟩
    · rintro j ⟨hj | hj, hj'⟩
      · exact absurd hj hj'
      · exact hj
    · rw [settleOne_has, dropCause_has, settleOne_station_ne _ _ _ (by decide), dropCause_state]
      simp [hk]
  · next e =>
    refine ⟨h1, (coilerHaltExact_iff _).mpr ?_⟩
    by_cases hi : i = staK0
    · subst hi
      rw [hb, hx, hl]
      refine and_congr_left fun hlot => ?_
      by_cases hk : (s.station staK0).state = .halted
      · have : s.has staC0 .coilerHalt = true := hx.mpr ⟨hk, hlot⟩
        simp only [hb, this, hk, and_true, true_and, not_not] at e
        simp [hk, e]
      · rw [settleOne_station, if_neg (fun e => hk e.2)]
    · rw [hb, hx, hl, settleOne_station_ne _ _ _ (Ne.symm hi)]

/-- The removal of a cause keeps the stations in order (R3, R7). -/
theorem removeCause_fine {o : Set Sta} {s : State} (h : Fine o s) (i : Sta) (c : Cause) (hc : c ≠ .coilerHalt) :
    Fine o (removeCause i c s) := by
  unfold removeCause
  split
  · refine (settle_fine (dropCause_fine h i c hc) i).mono ?_
    rintro j ⟨hj | hj, hj'⟩
    · exact absurd hj hj'
    · exact hj
  · exact h

/-- A move of a station to a state in order for it, off K0 and without a change of its set. -/
theorem changeState_fine {o : Set Sta} {s : State} (h : Fine o s) (i : Sta) (st : RunState) (d : BitVec 16) (hi : i ≠ staK0)
    (hok : LooseOk i { s.station i with state := st }) (hh : st = .halted → (s.station i).causes ≠ 0) :
    Fine o (changeState i st d s) := by
  have hne := fun j hj => changeState_station_ne i j st d s hj
  have hs := changeState_station i st d s
  refine ⟨h.1.write i hne (by rw [hs]; exact hok) (by rw [hs]; exact fun _ => hh) (fun _ _ hj => hj), ?_⟩
  refine coilerHaltExact_of_same h.2 ?_ (by rw [hne _ (Ne.symm hi)]) ((changeState_move i st d s).lot _)
  unfold State.has
  by_cases e : staC0 = i
  · subst e; rw [hs]
  · rw [hne _ e]

/-- A record of one station rewritten with its state, its set and its lot kept. -/
theorem Fine.of_stations {o : Set Sta} {s t : State} (h : Fine o s)
    (hs : ∀ i, (t.station i).state = (s.station i).state ∧ (t.station i).causes = (s.station i).causes ∧
      (t.station i).lot = (s.station i).lot) : Fine o t := by
  refine ⟨⟨fun i => (h.1.1 i).congr (hs i).1 (hs i).2.1 (hs i).2.2, fun i hi => ?_⟩, ?_⟩
  · rw [(hs i).1, (hs i).2.1]; exact h.1.2 i hi
  · refine coilerHaltExact_of_same h.2 ?_ (hs _).1 (hs _).2.2
    unfold State.has
    rw [(hs _).2.1]

end Sys2Proof.Laws
end

section
/-! The lot table: finding a lot, changing its record, and what keeps the table in order (R23, R27, R31). -/

namespace Sys2Proof.Laws

open Sys2Proof.Machine Sys2Proof.Safety

/-! ## Finding a lot -/

theorem slotHolds_iff (s : State) (n : Nat) (k : Slot) :
    s.slotHolds n k = true ↔ ∃ l, s.lots[k] = some l ∧ l.number = n := by
  unfold State.slotHolds
  cases s.lots[k] <;> simp

theorem slotOf_eq_some {s : State} {n : Nat} {k : Slot} (h : s.slotOf n = some k) :
    ∃ l, s.lots[k] = some l ∧ l.number = n := (slotHolds_iff s n k).mp (List.find?_some h)

theorem slotOf_eq_none {s : State} {n : Nat} : s.slotOf n = none ↔ ∀ (k : Slot) (l : Lot), s.lots[k] = some l → l.number ≠ n := by
  unfold State.slotOf
  rw [List.find?_eq_none]
  refine ⟨fun h k l hl e => h k (List.mem_finRange k) ((slotHolds_iff s n k).mpr ⟨l, hl, e⟩), fun h k _ hk => ?_⟩
  obtain ⟨l, hl, e⟩ := (slotHolds_iff s n k).mp hk
  exact h k l hl e

theorem lot?_eq_some {s : State} {n : Nat} {l : Lot} : s.lot? n = some l ↔ ∃ k, s.slotOf n = some k ∧ s.lots[k] = some l :=
  Option.bind_eq_some_iff

theorem lot?_number {s : State} {n : Nat} {l : Lot} (h : s.lot? n = some l) : l.number = n := by
  obtain ⟨k, hk, hl⟩ := lot?_eq_some.mp h
  obtain ⟨l', hl', e⟩ := slotOf_eq_some hk
  rw [hl] at hl'
  cases hl'; exact e

theorem lot?_eq_none {s : State} {n : Nat} : s.lot? n = none ↔ s.slotOf n = none := by
  refine ⟨fun h => ?_, fun h => by unfold State.lot?; rw [h]; rfl⟩
  rw [← Option.not_isSome_iff_eq_none]
  intro hs
  obtain ⟨k, hk⟩ := Option.isSome_iff_exists.mp hs
  obtain ⟨l, hl, -⟩ := slotOf_eq_some hk
  rw [lot?_eq_some.mpr ⟨k, hk, hl⟩] at h
  cases h

theorem hasLot_lot? {s : State} {k : Slot} {l : Lot} (h : HasLot s k l) : s.lot? l.number = some l :=
  lot?_eq_some.mpr ⟨k, h.1, h.2⟩

theorem lot?_hasLot {s : State} {n : Nat} {l : Lot} (h : s.lot? n = some l) : ∃ k, HasLot s k l := by
  have hn := lot?_number h
  subst hn
  exact lot?_eq_some.mp h

/-- The change of a lot that is present writes its record in its slot. -/
theorem modLot_of_hasLot {s : State} {k : Slot} {l : Lot} (h : HasLot s k l) (f : Lot → Lot) :
    modLot l.number f s = s.setLot k (some (f l)) := by
  unfold modLot
  rw [h.1]
  simp only [h.2, Option.map_some]

/-- The change of a lot that is not present changes nothing. -/
theorem modLot_of_none {s : State} {n : Nat} (h : s.lot? n = none) (f : Lot → Lot) : modLot n f s = s := by
  unfold modLot
  rw [lot?_eq_none.mp h]

theorem setLot_lots_self (s : State) (k : Slot) (o : Option Lot) : (s.setLot k o).lots[k] = o := by
  simp [State.setLot]

theorem setLot_lots_ne (s : State) (k j : Slot) (o : Option Lot) (h : j ≠ k) : (s.setLot k o).lots[j] = s.lots[j] :=
  Vector.getElem_set_ne k.isLt j.isLt (fun e => h (Fin.ext e.symm))

/-- What a slot holds does not depend on anything but the lot table. -/
theorem slotOf_congr {s t : State} (h : t.lots = s.lots) (n : Nat) : t.slotOf n = s.slotOf n := by
  unfold State.slotOf State.slotHolds; rw [h]

theorem lot?_congr {s t : State} (h : t.lots = s.lots) (n : Nat) : t.lot? n = s.lot? n := by
  unfold State.lot?; rw [slotOf_congr h, h]

theorem HasLot.congr {s t : State} {k : Slot} {l : Lot} (hl : HasLot s k l) (h : t.lots = s.lots) : HasLot t k l :=
  ⟨(slotOf_congr h _).trans hl.1, h ▸ hl.2⟩

/-- A record rewritten under its number leaves every lot in its slot. -/
theorem slotOf_setLot {s : State} {k : Slot} {l l' : Lot} (hl : s.lots[k] = some l) (hn : l'.number = l.number) (n : Nat) :
    (s.setLot k (some l')).slotOf n = s.slotOf n := by
  unfold State.slotOf
  congr 1
  funext j
  unfold State.slotHolds
  by_cases e : j = k
  · subst e; rw [setLot_lots_self, hl]; simp only [hn]
  · rw [setLot_lots_ne _ _ _ _ e]

theorem hasLot_setLot {s : State} {k : Slot} {l l' : Lot} (h : HasLot s k l) (hn : l'.number = l.number) :
    HasLot (s.setLot k (some l')) k l' :=
  ⟨by rw [slotOf_setLot h.2 hn, hn]; exact h.1, setLot_lots_self ..⟩

/-! ## The table in order -/

/-- One lot's record in order (R23 to R27, R31). -/
def LotOk (a : Lot) : Prop := 1 ≤ a.number ∧ a.number ≤ 65535 ∧ BuildOk a.build ∧ a.started ≤ a.build.ordered

theorem lotTableOk_iff (lots : Vector (Option Lot) 16) : LotTableOk lots ↔
    (∀ (j k : Slot) (a b : Lot), lots[j] = some a → lots[k] = some b → a.number = b.number → j = k) ∧
      ∀ (k : Slot) (a : Lot), lots[k] = some a → LotOk a := Iff.rfl

theorem lotTableOk_setLot {s : State} (h : LotTableOk s.lots) (k : Slot) (o : Option Lot)
    (ho : ∀ a, o = some a → LotOk a ∧ ∀ j b, j ≠ k → s.lots[j] = some b → b.number ≠ a.number) :
    LotTableOk (s.setLot k o).lots := by
  obtain ⟨hu, hk⟩ := h
  refine ⟨fun i j a b ha hb e => ?_, fun j a ha => ?_⟩
  · by_cases ei : i = k <;> by_cases ej : j = k
    · rw [ei, ej]
    · subst ei
      rw [setLot_lots_self] at ha; rw [setLot_lots_ne _ _ _ _ ej] at hb
      exact absurd e.symm ((ho a ha).2 j b ej hb)
    · subst ej
      rw [setLot_lots_self] at hb; rw [setLot_lots_ne _ _ _ _ ei] at ha
      exact absurd e ((ho b hb).2 i a ei ha)
    · rw [setLot_lots_ne _ _ _ _ ei] at ha; rw [setLot_lots_ne _ _ _ _ ej] at hb
      exact hu i j a b ha hb e
  · by_cases ej : j = k
    · subst ej; rw [setLot_lots_self] at ha; exact (ho a ha).1
    · rw [setLot_lots_ne _ _ _ _ ej] at ha; exact hk j a ha

/-- A change of a record that keeps its number and its order keeps the table in order. -/
theorem lotTableOk_modLot {s : State} (n : Nat) (f : Lot → Lot) (h : LotTableOk s.lots)
    (hf : ∀ l, s.lot? n = some l → (f l).number = l.number ∧ (LotOk l → LotOk (f l))) :
    LotTableOk (modLot n f s).lots := by
  cases hl : s.lot? n with
  | none => rw [modLot_of_none hl]; exact h
  | some l =>
    have hn := lot?_number hl
    subst hn
    obtain ⟨k, hk⟩ := lot?_hasLot hl
    obtain ⟨hnum, hok⟩ := hf l hl
    rw [modLot_of_hasLot hk]
    refine lotTableOk_setLot h k _ fun a ha => ?_
    cases ha
    refine ⟨hok (h.2 k l hk.2), fun j b hj hb e => hj ?_⟩
    exact h.1 j k b l hb hk.2 (e.trans hnum)

/-! ## What a step keeps -/

/-- `t` keeps in order what `s` keeps in order of the lot table and the settings, and keeps the retained image. -/
structure Stored (s t : State) : Prop where
  lots : LotTableOk s.lots → LotTableOk t.lots
  settings : SettingsOk s → SettingsOk t
  image : t.image = s.image

/-- With it, `t` keeps the stations in order, under any moves that R7 still owes. -/
structure Kept (s t : State) : Prop extends Stored s t where
  stations : ∀ o, Fine o s → Fine o t

/-- With it, `t` keeps the stations in order, but for a move that R7 now owes on station `i`. -/
structure Owing (i : Sta) (s t : State) : Prop extends Stored s t where
  stations : ∀ o, Fine o s → Fine (insert i o) t

theorem Stored.refl (s : State) : Stored s s := ⟨id, id, rfl⟩

theorem Stored.trans {s t u : State} (h : Stored s t) (k : Stored t u) : Stored s u :=
  ⟨k.lots ∘ h.lots, k.settings ∘ h.settings, k.image.trans h.image⟩

theorem Kept.refl (s : State) : Kept s s := ⟨.refl s, fun _ => id⟩

theorem Kept.trans {s t u : State} (h : Kept s t) (k : Kept t u) : Kept s u :=
  ⟨h.toStored.trans k.toStored, fun o => k.stations o ∘ h.stations o⟩

/-- `t` has the lot table, the settings with their copies, the commit and the retained image of `s`. -/
structure Aside (s t : State) : Prop where
  lots : t.lots = s.lots
  settings : t.settings = s.settings
  store : t.store = s.store
  commit : t.commit = s.commit
  image : t.image = s.image

theorem Aside.settingsOk {s t : State} (h : Aside s t) (hs : SettingsOk s) : SettingsOk t := by
  unfold SettingsOk at hs ⊢
  rw [h.settings, h.store, h.commit, h.image]; exact hs

theorem Aside.stored {s t : State} (h : Aside s t) : Stored s t := ⟨fun hl => h.lots ▸ hl, h.settingsOk, h.image⟩

/-- A change aside of lots and settings needs only an argument about the stations. -/
theorem Aside.kept {s t : State} (h : Aside s t) (hs : ∀ o, Fine o s → Fine o t) : Kept s t := ⟨h.stored, hs⟩

theorem Aside.of_move {s t : State} (h : MoveFrame s t) : Aside s t :=
  ⟨h.lots, h.settings, by rw [h.1], by rw [h.1], h.image⟩

theorem Aside.trans {s t u : State} (h : Aside s t) (k : Aside t u) : Aside s u :=
  ⟨k.lots.trans h.lots, k.settings.trans h.settings, k.store.trans h.store, k.commit.trans h.commit, k.image.trans h.image⟩

/-- A change of other records keeps everything. -/
theorem Kept.same {s t : State} (hl : t.lots = s.lots) (hc : t.settings = s.settings) (hs : t.store = s.store)
    (hm : t.commit = s.commit) (hi : t.image = s.image) (hst : t.stations = s.stations) : Kept s t :=
  Aside.kept ⟨hl, hc, hs, hm, hi⟩ fun _ h => h.of_stations fun i => by
    unfold State.station; rw [hst]; exact ⟨rfl, rfl, rfl⟩

theorem NoticeFrame.kept {s t : State} (h : NoticeFrame s t) : Kept s t := by
  have e := h.1
  exact .same (by rw [e]) (by rw [e]) (by rw [e]) (by rw [e]) (by rw [e]) (by rw [e])

theorem Kept.ite {s a : State} {c : Prop} [Decidable c] (h : c → Kept s a) : Kept s (if c then a else s) := by
  split
  · next hc => exact h hc
  · exact .refl s

theorem Kept.foldl {α : Type} (f : State → α → State) (h : ∀ s a, Kept s (f s a)) (xs : List α) (s : State) :
    Kept s (xs.foldl f s) := foldl_frame Kept.refl Kept.trans f h xs s

/-! ## Notices, causes, moves -/

theorem offer_kept (p : Port) (cls : NoticeClass) (sub : Subject) (d : BitVec 16) (s : State) :
    Kept s (offer p cls sub d s) := (offer_frame ..).kept

theorem raise_kept (cls : NoticeClass) (sub : Subject) (d : BitVec 16) (s : State) : Kept s (raise cls sub d s) :=
  (raise_frame ..).kept

theorem warn_kept (w : Warning) (cls : NoticeClass) (sub : Subject) (d : BitVec 16) (s : State) :
    Kept s (warn w cls sub d s) := (warn_frame ..).kept

theorem raiseCause_kept (i : Sta) {c : Cause} (s : State) (hc : c ≠ .coilerHalt) : Kept s (raiseCause i c s) :=
  (Aside.of_move (raiseCause_move i c s)).kept fun _ h => raiseCause_fine h i c hc

theorem removeCause_kept (i : Sta) {c : Cause} (s : State) (hc : c ≠ .coilerHalt) : Kept s (removeCause i c s) :=
  (Aside.of_move (removeCause_move i c s)).kept fun _ h => removeCause_fine h i c hc

theorem raiseOnAll_kept (set : BitSet 8) {c : Cause} (s : State) (hc : c ≠ .coilerHalt) : Kept s (raiseOnAll set c s) :=
  Kept.foldl _ (fun _ _ => .ite fun _ => raiseCause_kept _ _ hc) _ s

theorem removeFromAll_kept (set : BitSet 8) {c : Cause} (s : State) (hc : c ≠ .coilerHalt) :
    Kept s (removeFromAll set c s) := Kept.foldl _ (fun _ _ => .ite fun _ => removeCause_kept _ _ hc) _ s

theorem setStation_kept (i : Sta) (r : Station) (s : State) (hs : r.state = (s.station i).state)
    (hc : r.causes = (s.station i).causes) (hl : r.lot = (s.station i).lot) : Kept s (s.setStation i r) :=
  Aside.kept ⟨rfl, rfl, rfl, rfl, rfl⟩ fun _ h => h.of_stations fun j => by
    rw [State.setStation_station]
    split
    · next e => subst e; exact ⟨hs, hc, hl⟩
    · exact ⟨rfl, rfl, rfl⟩

theorem setTwist_kept (t : Twi) (w : Twist) (s : State) : Kept s (s.setTwist t w) := .same rfl rfl rfl rfl rfl rfl
theorem setPort_kept (p : Port) (u : PortUnit) (s : State) : Kept s (s.setPort p u) := .same rfl rfl rfl rfl rfl rfl
theorem setLoom_kept (l : Loom) (q : LoomPos) (s : State) : Kept s (s.setLoom l q) := .same rfl rfl rfl rfl rfl rfl
theorem setChannel_kept (c : Chan) (r : Channel) (s : State) : Kept s (s.setChannel c r) := .same rfl rfl rfl rfl rfl rfl
theorem setBobbins_kept (bs : List Bobbin) (s : State) : Kept s (s.setBobbins bs) := .same rfl rfl rfl rfl rfl rfl
theorem setMeter_kept (m : Meter) (s : State) : Kept s (s.setMeter m) := .same rfl rfl rfl rfl rfl rfl
theorem setCoiler_kept (k : Coiler) (s : State) : Kept s (s.setCoiler k) := .same rfl rfl rfl rfl rfl rfl
theorem setArbor_kept (id : ArborId) (r : Arbor) (s : State) : Kept s (s.setArbor id r) := .same rfl rfl rfl rfl rfl rfl
theorem putBobbin_kept (b : Bobbin) (s : State) : Kept s (putBobbin b s) := .same rfl rfl rfl rfl rfl rfl
theorem discardSlip_kept (s : State) : Kept s (discardSlip s) := .same rfl rfl rfl rfl rfl rfl
theorem modLoom_kept (l : Loom) (f : LoomPos → LoomPos) (s : State) : Kept s (modLoom l f s) := .same rfl rfl rfl rfl rfl rfl
theorem modLay_kept (t : Twi) (f : Lay → Lay) (s : State) : Kept s (modLay t f s) := .same rfl rfl rfl rfl rfl rfl
theorem advanceMs_kept (ms : Nat) (s : State) : Kept s (s.advanceMs ms) := .same rfl rfl rfl rfl rfl rfl
theorem advanceUs_kept (us : Nat) (s : State) : Kept s (s.advanceUs us) := .same rfl rfl rfl rfl rfl rfl

theorem modCoil_kept (id : ArborId) (f : Coil → Coil) (s : State) : Kept s (modCoil id f s) := by
  unfold modCoil
  split
  · exact setArbor_kept ..
  · exact .refl s

theorem changeState_kept (i : Sta) (st : RunState) (d : BitVec 16) (s : State) (hi : i ≠ staK0)
    (h : LooseOk i (s.station i) → LooseOk i { s.station i with state := st })
    (hh : st = .halted → (s.station i).causes ≠ 0) : Kept s (changeState i st d s) :=
  (Aside.of_move (changeState_move i st d s)).kept fun _ hf => changeState_fine hf i st d hi (h (hf.1.1 i)) hh

theorem moveTo_kept (i : Sta) (st : RunState) (s : State) (hi : i ≠ staK0)
    (h : LooseOk i (s.station i) → LooseOk i { s.station i with state := st })
    (hh : st = .halted → (s.station i).causes ≠ 0) : Kept s (moveTo i st s) := changeState_kept i st _ s hi h hh

/-! ## Removals, and the move they owe -/

theorem Kept.owing {s t : State} (i : Sta) (h : Kept s t) : Owing i s t :=
  ⟨h.toStored, fun o hf => (h.stations o hf).mono (Set.subset_insert i o)⟩

theorem Owing.kept {i : Sta} {s t u : State} (h : Owing i s t) (k : Kept t u) : Owing i s u :=
  ⟨h.toStored.trans k.toStored, fun o hf => k.stations _ (h.stations o hf)⟩

theorem Owing.drop {i : Sta} {s t : State} (h : Owing i s t) {c : Cause} (hc : c ≠ .coilerHalt) :
    Owing i s (dropCause i c t) :=
  ⟨h.toStored.trans (Aside.of_move (dropCause_move i c t)).stored, fun o hf => by
    have := dropCause_fine (h.stations o hf) i c hc
    rwa [Set.insert_eq_of_mem (Set.mem_insert i o)] at this⟩

theorem Owing.dropAll {i : Sta} {s : State} (cs : List Cause) (hc : ∀ c ∈ cs, c ≠ .coilerHalt) :
    ∀ {t}, Owing i s t → Owing i s (cs.foldl (fun s c => dropCause i c s) t) := by
  induction cs with
  | nil => exact id
  | cons c cs ih =>
    exact fun h => ih (fun d hd => hc d (List.mem_cons_of_mem _ hd)) (h.drop (hc c List.mem_cons_self))

theorem Owing.settle {i : Sta} {s t : State} (h : Owing i s t) : Kept s (settle i t) :=
  ⟨h.toStored.trans (Aside.of_move (settle_move i t)).stored, fun o hf => by
    refine (settle_fine (h.stations o hf) i).mono ?_
    rintro j ⟨hj | hj, hj'⟩
    · exact absurd hj hj'
    · exact hj⟩

/-! ## The counts of the lot table -/

theorem modLot_kept (n : Nat) (f : Lot → Lot) (s : State)
    (hf : ∀ l, s.lot? n = some l → (f l).number = l.number ∧ (LotOk l → LotOk (f l))) : Kept s (modLot n f s) := by
  have e := modLot_frame n f s
  refine ⟨⟨fun h => lotTableOk_modLot n f h hf, fun h => ?_, by rw [e]⟩, fun _ h => ?_⟩
  · rw [e]; exact h
  · rw [e]; exact h

/-- A change that keeps number, construction and starts. -/
theorem modLot_kept_of_same (n : Nat) (f : Lot → Lot) (s : State)
    (hf : ∀ l, (f l).number = l.number ∧ (f l).build = l.build ∧ (f l).started ≤ l.started) : Kept s (modLot n f s) := by
  refine modLot_kept n f s fun l _ => ⟨(hf l).1, fun ⟨h1, h2, h3, h4⟩ => ?_⟩
  obtain ⟨e1, e2, e3⟩ := hf l
  exact ⟨e1 ▸ h1, e1 ▸ h2, e2 ▸ h3, by rw [e2]; exact e3.trans h4⟩

theorem moveLot_kept (n : Nat) (st : LotState) (s : State) : Kept s (moveLot n st s) :=
  (modLot_kept_of_same n (fun l => { l with state := st }) s fun _ => ⟨rfl, rfl, Nat.le_refl _⟩).trans (raise_kept ..)

theorem withdrawStart_kept (n : Nat) (s : State) : Kept s (withdrawStart n s) :=
  modLot_kept_of_same n _ s fun _ => ⟨rfl, rfl, Nat.sub_le ..⟩

theorem addProduced_kept (n mm : Nat) (s : State) : Kept s (addProduced n mm s) :=
  modLot_kept_of_same n _ s fun _ => ⟨rfl, rfl, Nat.le_refl _⟩

/-- A start that the lot table grants is at most the ordered count (R27). -/
theorem addStart_kept (n : Nat) (s : State) (h : canStart n s = true) : Kept s (addStart n s) := by
  refine modLot_kept n _ s fun l hl => ⟨rfl, fun ⟨h1, h2, h3, _⟩ => ⟨h1, h2, h3, ?_⟩⟩
  unfold canStart at h
  rw [hl] at h
  simp only [Bool.and_eq_true, decide_eq_true_eq] at h
  exact h.1

theorem checkComplete_kept (n : Nat) (s : State) : Kept s (checkComplete n s) := by
  unfold checkComplete
  split
  · exact .ite fun _ => (moveLot_kept ..).trans (raiseOnAll_kept _ _ (by decide))
  · exact .refl s

theorem countDone_kept (n : Nat) (s : State) : Kept s (countDone n s) :=
  (modLot_kept_of_same n (fun l => { l with done := l.done + 1 }) s fun _ => ⟨rfl, rfl, Nat.le_refl _⟩).trans
    (checkComplete_kept ..)

/-! ## Bobbins and draw -/

/-- The counts of a bobbin that has been filled, for the lot it holds. -/
theorem countFilled_kept (o : Option Nat) (mm : Nat) (s : State) :
    Kept s (match o with | some n => countDone n (addProduced n mm s) | none => s) := by
  split
  · exact (addProduced_kept ..).trans (countDone_kept ..)
  · exact .refl s

theorem endFill_kept (i : Strander) (s : State) : Kept s (endFill i s) := by
  unfold endFill
  refine .ite fun _ => ?_
  split
  · next b _ =>
    refine .ite fun _ => ?_
    extract_lets s1
    exact (putBobbin_kept _ s).trans (countFilled_kept b.lot b.wound.mm s1)
  · exact .refl s

theorem charge_kept (i : Sta) (pl : Place) (d : Nat) (s : State) : Kept s (charge i pl d s).1 := by
  unfold charge
  split
  · split
    · extract_lets take b1 out low s1 s2 s3
      have h1 : Kept s s1 := putBobbin_kept ..
      have h2 : Kept s1 s2 := .ite fun _ => warn_kept ..
      have h3 : Kept s2 s3 := .ite fun _ => (raiseCause_kept _ _ (by decide)).trans (raise_kept ..)
      exact h1.trans (h2.trans h3)
    · exact .refl s
  · exact .refl s

end Sys2Proof.Laws
end

section
/-! What the operations of the blocks keep in order: coiling, bobbins, knotting, metering, lay and twist. -/

namespace Sys2Proof.Laws

open Sys2Proof.Machine Sys2Proof.Safety

/-! ## Coiling -/

theorem startCoil_kept (id : ArborId) (n : Nat) (s : State) (h : canStart n s = true) : Kept s (startCoil id n s) := by
  unfold startCoil
  extract_lets s1 seq c c' s2
  have h1 : Kept s s1 := addStart_kept n s h
  have h2 : Kept s1 s2 := setArbor_kept ..
  refine h1.trans (h2.trans ?_)
  split
  · exact .refl _
  · exact setMeter_kept ..

theorem cutPoint_kept (id : ArborId) (s : State) : Kept s (cutPoint id s) := by
  unfold cutPoint
  split
  · extract_lets s1 s2
    have h1 : Kept s s1 := setArbor_kept ..
    have h2 : Kept s1 s2 := raiseCause_kept _ _ (by decide)
    refine h1.trans (h2.trans ?_)
    split
    · exact .refl _
    · exact raiseCause_kept _ _ (by decide)
  · exact .refl s

theorem coilIncrement_kept (d : Nat) (s : State) : Kept s (coilIncrement d s) := by
  unfold coilIncrement
  split
  · exact .refl s
  · split
    · exact .refl s
    · extract_lets grown s1
      have h1 : Kept s s1 := setArbor_kept ..
      refine h1.trans ?_
      split
      · extract_lets s2 slows s3
        have h2 : Kept s1 s2 := .ite fun _ => setCoiler_kept ..
        have h3 : Kept s2 s3 := .ite fun _ => setArbor_kept ..
        exact h2.trans (h3.trans (.ite fun _ => cutPoint_kept ..))
      · exact .refl _

theorem coilShortfall_kept (d : Nat) (s : State) : Kept s (coilShortfall d s) := by
  unfold coilShortfall
  split
  · exact modCoil_kept ..
  · exact .refl s

theorem takeTag_kept (id : ArborId) (s : State) : Kept s (takeTag id s) := by
  unfold takeTag
  split
  · extract_lets k s1
    have h1 : Kept s s1 := (setCoiler_kept _ s).trans (modCoil_kept ..)
    exact h1.trans (.ite fun _ => warn_kept ..)
  · exact .refl s

theorem tagOnPacking_kept (id : ArborId) (s : State) : Kept s (tagOnPacking id s) := by
  unfold tagOnPacking
  split
  · exact raise_kept ..
  · exact takeTag_kept ..

theorem postCoil_kept (c : Coil) (s : State) : Kept s (postCoil c s) := by
  unfold postCoil
  extract_lets k s1 s2
  have h1 : Kept s s1 := setCoiler_kept ..
  have h2 : Kept s1 s2 := raise_kept ..
  exact h1.trans (h2.trans (.ite fun _ => warn_kept ..))

theorem freeArbor_kept (id : ArborId) (s : State) : Kept s (freeArbor id s) := by
  unfold freeArbor
  extract_lets s1
  have h1 : Kept s s1 := setArbor_kept ..
  exact h1.trans (.ite fun _ => removeCause_kept _ _ (by decide))

theorem cutReport_kept (id : ArborId) (c : Coil) (s : State) : Kept s (cutReport id c s) := by
  unfold cutReport
  extract_lets past fixed s1 s2 s3 s4
  have h1 : Kept s s1 := (setArbor_kept id _ s).trans (discardSlip_kept _)
  have h2 : Kept s1 s2 := (addProduced_kept ..).trans (countDone_kept ..)
  have h3 : Owing staC0 s s3 := (((h1.trans h2).owing staC0).drop (by decide)).drop (by decide)
  have h4 : Kept s3 s4 := by
    dsimp only [s4]
    split
    · next h =>
      simp only [Bool.and_eq_true] at h
      exact startCoil_kept _ _ _ h.1
    · split
      · exact .ite fun _ => raiseCause_kept _ _ (by decide)
      · exact .refl _
  exact ((h3.kept h4).kept (tagOnPacking_kept ..)).settle

theorem packReport_kept (id : ArborId) (c : Coil) (s : State) : Kept s (packReport id c s) := by
  unfold packReport
  split
  · exact (postCoil_kept ..).trans (freeArbor_kept ..)
  · exact (setArbor_kept id _ s).trans (raise_kept ..)

theorem closeArbor_kept (n : Nat) (s : State) : Kept s (closeArbor n s) := by
  unfold closeArbor
  split
  · split
    · refine .ite fun _ => ?_
      split
      · exact (setArbor_kept _ _ s).trans ((discardSlip_kept _).trans (withdrawStart_kept ..))
      · exact (modCoil_kept ..).trans (cutPoint_kept ..)
    · exact .refl s
  · exact .refl s

/-! ## Bobbins -/

theorem warnLow_kept (id : Nat) (s : State) : Kept s (warnLow id s) := warn_kept ..

theorem windBobbin_kept (i : Strander) (d : Nat) (s : State) : Kept s (windBobbin i d s) := by
  unfold windBobbin
  split
  · refine .ite fun _ => ?_
    extract_lets sum clamped wound s1 s2 full
    have h1 : Kept s s1 := putBobbin_kept ..
    have h2 : Kept s1 s2 := .ite fun _ => warn_kept ..
    exact h1.trans (h2.trans (.ite fun _ => (raiseCause_kept _ _ (by decide)).trans (endFill_kept ..)))
  · exact .refl s

theorem drawPosition_kept (d t : Nat) (acc : State × Nat) (i : Pos) : Kept acc.1 (drawPosition d t acc i).1 := by
  unfold drawPosition
  extract_lets s sum r
  have h1 : Kept s { s with residues := s.residues.set i (sum % 1000) } := .same rfl rfl rfl rfl rfl rfl
  exact h1.trans (charge_kept staC0 (.closer i) (sum / 1000) _)

theorem drawPositions_kept (d t : Nat) (ps : List Pos) : ∀ acc : State × Nat, Kept acc.1 (ps.foldl (drawPosition d t) acc).1 := by
  induction ps with
  | nil => exact fun acc => .refl _
  | cons i ps ih => exact fun acc => (drawPosition_kept d t acc i).trans (ih _)

theorem takeUpDraw_kept (d : Nat) (s : State) : Kept s (takeUpDraw d s) := by
  unfold takeUpDraw
  split
  · next r _ =>
    extract_lets out
    have h1 : Kept s out.1 := drawPositions_kept d r.takeUp r.positions (s, 0)
    have h2 : Kept out.1 { out.1 with closerShort := out.1.closerShort.add out.2 } := .same rfl rfl rfl rfl rfl rfl
    exact h1.trans (h2.trans (coilShortfall_kept ..))
  · exact .refl s

theorem issueBobbin_kept (i : Strander) (b : Bobbin) (l : Lot) (c : StrandLot) (s : State)
    (h : canStart l.number s = true) : Kept s (issueBobbin i b l c s) := by
  unfold issueBobbin
  extract_lets s1 s2
  have h1 : Kept s s1 := addStart_kept _ s h
  have h2 : Kept s1 s2 := putBobbin_kept ..
  exact h1.trans (h2.trans (removeCause_kept _ _ (by decide)))

theorem doffBobbin_kept (b : Bobbin) (s : State) : Kept s (doffBobbin b s) := by
  unfold doffBobbin
  split
  · extract_lets s1
    have h1 : Kept s s1 := putBobbin_kept ..
    exact h1.trans (countFilled_kept b.lot b.wound.mm s1)
  · extract_lets s1
    have h1 : Kept s s1 := putBobbin_kept ..
    refine h1.trans ?_
    split
    · exact withdrawStart_kept ..
    · exact .refl _

theorem listOnCoil_kept (i : Sta) (id : Nat) (s : State) : Kept s (listOnCoil i id s) := by
  unfold listOnCoil
  refine .ite fun _ => ?_
  split
  · exact modCoil_kept ..
  · exact .refl s

theorem restoreFeed_kept (i : Sta) (s : State) : Kept s (restoreFeed i s) := by
  unfold restoreFeed
  exact .ite fun _ => ((((Kept.refl s).owing i).drop (by decide)).kept (raise_kept ..)).settle

theorem mountBobbin_kept (i : Sta) (pl : Place) (b : Bobbin) (s : State) : Kept s (mountBobbin i pl b s) := by
  unfold mountBobbin
  extract_lets low s1 s2 s3
  have h1 : Kept s s1 := putBobbin_kept ..
  have h2 : Kept s1 s2 := by
    dsimp only [s2]
    split
    · exact .same rfl rfl rfl rfl rfl rfl
    · exact .refl _
  have h3 : Kept s2 s3 := .ite fun _ => warnLow_kept ..
  exact h1.trans (h2.trans (h3.trans ((listOnCoil_kept ..).trans (restoreFeed_kept ..))))

/-! ## Knotting -/

theorem loomSta_ne_staK0 (l : Loom) : loomSta l ≠ staK0 := by revert l; decide

theorem stateOfKind_loom (l : Loom) (st : RunState) (h : st = .standby ∨ st = .knotting ∨ st = .rowHold) :
    stateOfKind (kindOf (loomSta l)) st = true := by
  rcases h with rfl | rfl | rfl <;> revert l <;> decide

/-- A loom that holds a lot may go to ROW_HOLD whatever its set. -/
theorem moveTo_rowHold_kept (l : Loom) (s : State) (h : (s.station (loomSta l)).lot ≠ none) :
    Kept s (moveTo (loomSta l) .rowHold s) :=
  moveTo_kept _ _ s (loomSta_ne_staK0 l)
    (fun _ => .move (stateOfKind_loom l _ (by simp)) h (by simp) (by simp)) (by simp)

/-- A loom at rest or knotting has an empty set, and goes to STANDBY or KNOTTING with it. -/
theorem moveTo_loom_kept (l : Loom) (st : RunState) (s : State) (hst : st = .standby ∨ st = .knotting)
    (h : (s.station (loomSta l)).state = .standby ∨ (s.station (loomSta l)).state = .knotting) :
    Kept s (moveTo (loomSta l) st s) := by
  refine moveTo_kept _ _ s (loomSta_ne_staK0 l) (fun hl => ?_) (by rcases hst with rfl | rfl <;> simp)
  obtain ⟨hlot, hc⟩ := hl.quiet (by tauto)
  exact .move (stateOfKind_loom l st (by tauto)) hlot (by rcases hst with rfl | rfl <;> simp) (fun _ => hc)

/-- A loom in ROW_HOLD goes on with an empty set, and to HALTED under causes (R120, R121). -/
theorem moveTo_ofRowHold_kept (l : Loom) (st : RunState) (s : State)
    (h : (s.station (loomSta l)).state = .rowHold)
    (hst : (st = .standby ∨ st = .knotting) ∧ (s.station (loomSta l)).causes = 0 ∨
      st = .halted ∧ (s.station (loomSta l)).causes ≠ 0) : Kept s (moveTo (loomSta l) st s) := by
  refine moveTo_kept _ _ s (loomSta_ne_staK0 l) (fun hl => ?_) (fun e => ?_)
  · have hlot := hl.lot (by rw [h]; simp) (by rw [h]; simp)
    rcases hst with ⟨hst, hc⟩ | ⟨rfl, -⟩
    · exact .move (stateOfKind_loom l st (by tauto)) hlot (by rcases hst with rfl | rfl <;> simp) (fun _ => hc)
    · exact .halted rfl
  · rcases hst with ⟨rfl | rfl, -⟩ | ⟨-, hc⟩
    · cases e
    · cases e
    · exact hc

theorem openRow_kept (l : Loom) (s : State) : Kept s (openRow l s) := setLoom_kept ..

theorem startPanel_kept (l : Loom) (c : NetLot) (s : State) (h : canStart (s.loomLot l) s = true) :
    Kept s (startPanel l c s) := (addStart_kept _ s h).trans (setLoom_kept ..)

theorem startPanel_station (l : Loom) (c : NetLot) (s : State) (i : Sta) :
    (startPanel l c s).station i = s.station i := by
  unfold startPanel addStart
  rw [modLot_frame]; rfl

theorem finishPanel_kept (l : Loom) (s : State) : Kept s (finishPanel l s) :=
  (setLoom_kept l _ s).trans ((raise_kept ..).trans (countDone_kept ..))

theorem rejectPanel_kept (l : Loom) (s : State) : Kept s (rejectPanel l s) := by
  unfold rejectPanel
  exact (setLoom_kept l _ s).trans ((withdrawStart_kept ..).trans
    ((modLot_kept_of_same _ (fun t => { t with rejected := min 255 (t.rejected + 1) }) _
      fun _ => ⟨rfl, rfl, Nat.le_refl _⟩).trans (raise_kept ..)))

theorem rejectPanel_station (l : Loom) (s : State) (i : Sta) : (rejectPanel l s).station i = s.station i := by
  unfold rejectPanel withdrawStart
  rw [(raise_frame ..).station, modLot_frame, modLot_frame]; rfl

theorem attemptPanel_kept (l : Loom) (s : State) : Kept s (attemptPanel l s).1 := by
  unfold attemptPanel
  extract_lets i
  split
  · next h =>
    split
    · next hc _ => exact (startPanel_kept l _ s hc).trans (openRow_kept ..)
    · exact moveTo_loom_kept l _ s (.inl rfl) (.inr h.1)
  · exact .refl s

theorem runLoom_kept (l : Loom) (s : State) : Kept s (runLoom l s).1 := by
  unfold runLoom
  extract_lets i
  split
  · exact .refl s
  · next h =>
    have h := not_not.mp h
    split
    · exact .refl s
    · split
      · exact (openRow_kept l s).trans (moveTo_loom_kept l _ _ (.inr rfl) (.inl h))
      · split
        · next c hc _ =>
          refine ((startPanel_kept l c s hc).trans (openRow_kept ..)).trans (moveTo_loom_kept l _ _ (.inr rfl) (.inl ?_))
          exact (congrArg Station.state (startPanel_station l c s i)).trans h
        · exact .refl s

theorem stopLoom_kept (l : Loom) (s : State) : Kept s (stopLoom l s).1 := by
  unfold stopLoom
  extract_lets i
  split
  · next h => exact moveTo_loom_kept l _ s (.inl rfl) (.inr h)
  · exact .refl s
  · exact .refl s

theorem compareKnots_kept (l : Loom) (knots : BitVec 256) (s : State) : Kept s (compareKnots l knots s) := by
  unfold compareKnots
  extract_lets q missed stray faulty
  generalize faulty = ns
  cases ns with
  | nil => exact .refl s
  | cons n ns =>
    dsimp -zeta only
    extract_lets e s1
    have h1 : Kept s s1 := modLoom_kept ..
    exact h1.trans (raise_kept ..)

theorem chargeFeed_kept (l : Loom) (f : Feed) (mm : Nat) (s : State) : Kept s (chargeFeed l f mm s) :=
  (charge_kept ..).trans (setLoom_kept ..)

theorem chargeTwine_kept (l : Loom) (c : NetLot) (s : State) : Kept s (chargeTwine l c s) :=
  (chargeFeed_kept ..).trans ((chargeFeed_kept ..).trans
    (modLot_kept_of_same _ (fun t => { t with rows := min Config.maxMm (t.rows + 1) }) _ fun _ => ⟨rfl, rfl, Nat.le_refl _⟩))

theorem taper_kept (l : Loom) (s : State) : Kept s (taper l s) := by
  unfold taper
  extract_lets q g r first last clamped s1
  have h1 : Kept s s1 := modLoom_kept ..
  exact .ite fun _ => h1.trans (.ite fun _ => warn_kept ..)

/-! ### The lot a station holds, through a report -/

theorem charge_lot (i : Sta) (pl : Place) (d : Nat) (s : State) (j : Sta) :
    ((charge i pl d s).1.station j).lot = (s.station j).lot := by
  unfold charge
  split
  · split
    · extract_lets take b1 out low s1 s2 s3
      have h2 : (s2.station j).lot = (s.station j).lot := by
        dsimp only [s2]
        split
        · exact ((MoveFrame.ofNotice (warn_frame ..)).lot j).trans rfl
        · rfl
      have h3 : (s3.station j).lot = (s2.station j).lot := by
        dsimp only [s3]
        split
        · exact ((raiseCause_move ..).trans (.ofNotice (raise_frame ..))).lot j
        · rfl
      exact h3.trans h2
    · rfl
  · rfl

theorem compareKnots_station (l : Loom) (knots : BitVec 256) (s : State) (j : Sta) :
    (compareKnots l knots s).station j = s.station j := by
  unfold compareKnots
  extract_lets q missed stray faulty
  generalize faulty = ns
  cases ns with
  | nil => rfl
  | cons n ns => exact (raise_frame ..).station j

theorem chargeTwine_lot (l : Loom) (c : NetLot) (s : State) (j : Sta) :
    ((chargeTwine l c s).station j).lot = (s.station j).lot := by
  unfold chargeTwine
  extract_lets draw s1
  rw [modLot_frame]
  exact (charge_lot ..).trans (charge_lot ..)

theorem taper_station (l : Loom) (s : State) (j : Sta) : (taper l s).station j = s.station j := by
  unfold taper
  extract_lets q g r first last clamped s1
  split
  · split
    · exact (warn_frame ..).station j
    · rfl
  · rfl

/-- A loom whose lot is a NET lot holds a lot. -/
theorem lot_ne_none_of_net {s : State} {l : Loom} {c : NetLot} (h : s.net l = some c) : (s.station (loomSta l)).lot ≠ none := by
  intro e
  unfold State.net State.lotOf at h
  rw [e] at h
  simp at h

theorem rowAnswer_kept (l : Loom) (taken : Nat) (d : Directive) (o : Option RowOrder) (s : State) :
    Kept s (rowAnswer l taken d o s).1 := setLoom_kept ..

theorem stopOrNext_kept (l : Loom) (s : State) : Kept s (stopOrNext l s).1 := by
  unfold stopOrNext
  extract_lets i
  split
  · exact .refl s
  · exact openRow_kept ..

theorem takeReport_kept (l : Loom) (c : NetLot) (knots : BitVec 256) (s : State) (h : s.net l = some c) :
    Kept s (takeReport l c knots s).1 := by
  unfold takeReport
  extract_lets i taken hold s1 s2 ended
  have h1 : Kept s s1 := modLoom_kept ..
  have h2 : Kept s1 s2 := (compareKnots_kept l knots s1).trans ((chargeTwine_kept ..).trans (taper_kept ..))
  have hlot : (s2.station i).lot ≠ none := by
    dsimp only [s2]
    rw [taper_station, chargeTwine_lot, compareKnots_station]
    exact lot_ne_none_of_net h
  refine (h1.trans h2).trans ?_
  clear_value s2
  split
  · next q _ =>
    extract_lets s3 r
    have h3 : Kept s2 s3 := setLoom_kept ..
    refine h3.trans ?_
    split
    · exact (moveTo_rowHold_kept l s3 hlot).trans (rowAnswer_kept ..)
    · have h4 : Kept s3 r.1 := stopOrNext_kept ..
      exact h4.trans (rowAnswer_kept ..)
  · split
    · have h3 := modLoom_kept l (fun q => { q with endPending := true }) s2
      exact h3.trans ((moveTo_rowHold_kept l _ (by exact hlot)).trans (rowAnswer_kept ..))
    · have h3 : Kept s2 ended.1 := (finishPanel_kept l s2).trans (attemptPanel_kept ..)
      exact h3.trans (rowAnswer_kept ..)

theorem replyAnswer_kept (l : Loom) (d : Directive) (o : Option RowOrder) (s : State) :
    Kept s (replyAnswer l d o s).1 := setLoom_kept ..

/-- The end of a panel leaves a loom in ROW_HOLD there (R6). -/
theorem raiseCause_rowHold (i j : Sta) (c : Cause) (s : State) (h : (s.station j).state = .rowHold) :
    ((raiseCause i c s).station j).state = .rowHold := by
  have one : ∀ i c s, (s.station j).state = .rowHold → ((raiseOne i c s).station j).state = .rowHold := by
    intro i c s h
    by_cases hr : c.admissible (kindOf i) = false ∨ s.has i c = true
    · unfold raiseOne; rw [if_pos hr]; exact h
    · simp only [not_or, Bool.not_eq_false, Bool.not_eq_true] at hr
      by_cases e : j = i
      · subst e; rw [raiseOne_station _ _ _ hr.1 hr.2]; simp only [h]; rfl
      · rw [raiseOne_station_ne _ _ _ _ e]; exact h
  unfold raiseCause coilerHalted
  split
  · exact one _ _ _ (one _ _ _ h)
  · exact one _ _ _ h

theorem raiseOnAll_rowHold (set : BitSet 8) (j : Sta) (c : Cause) (s : State)
    (h : (s.station j).state = .rowHold) : ((raiseOnAll set c s).station j).state = .rowHold := by
  refine foldl_frame (F := fun s t => (s.station j).state = .rowHold → (t.station j).state = .rowHold)
    (fun _ => id) (fun h k => k ∘ h) _ (fun s i h => ?_) allStations s h
  split
  · exact raiseCause_rowHold _ _ _ _ h
  · exact h

theorem finishPanel_rowHold (l : Loom) (s : State) (h : (s.station (loomSta l)).state = .rowHold) :
    ((finishPanel l s).station (loomSta l)).state = .rowHold := by
  unfold finishPanel countDone checkComplete
  have h1 : ∀ f, ((modLot (s.loomLot l) f (raise .row (.station (loomSta l)) wordPanelDone
      (modLoom l (fun q => { q with inPanel := false, endPending := false }) s))).station (loomSta l)).state = .rowHold := by
    intro f
    rw [modLot_frame]
    exact (congrArg Station.state ((raise_frame ..).station _)).trans h
  split
  · split
    · refine raiseOnAll_rowHold _ _ _ _ ?_
      unfold moveLot
      rw [(raise_frame ..).station, modLot_frame]
      exact h1 _
    · exact h1 _
  · exact h1 _

theorem acceptRow_kept (l : Loom) (s : State) (h : (s.station (loomSta l)).state = .rowHold) :
    Kept s (acceptRow l s).1 := by
  unfold acceptRow
  extract_lets i ended s1 s2 r s3
  have h1 : Kept s s1 := .ite fun _ => finishPanel_kept ..
  have hs : (s1.station i).state = .rowHold := by
    dsimp only [s1]
    split
    · exact finishPanel_rowHold l s h
    · exact h
  refine h1.trans ?_
  split
  · next hc =>
    have h2 : Kept s1 s2 := moveTo_ofRowHold_kept l _ s1 hs (.inl ⟨.inr rfl, hc⟩)
    refine h2.trans ?_
    split
    · exact (attemptPanel_kept ..).trans (replyAnswer_kept ..)
    · exact (openRow_kept ..).trans (replyAnswer_kept ..)
  · next hc => exact (moveTo_ofRowHold_kept l _ s1 hs (.inr ⟨rfl, hc⟩)).trans (replyAnswer_kept ..)

theorem abandonRow_kept (l : Loom) (s : State) (h : (s.station (loomSta l)).state = .rowHold) :
    Kept s (abandonRow l s).1 := by
  unfold abandonRow
  extract_lets i s1
  have h1 : Kept s s1 := rejectPanel_kept ..
  refine h1.trans (Kept.trans (moveTo_ofRowHold_kept l _ s1 ?_ ?_) (replyAnswer_kept ..))
  · rw [rejectPanel_station]; exact h
  · split
    · next hc => exact .inl ⟨.inl rfl, hc⟩
    · next hc => exact .inr ⟨rfl, hc⟩

/-! ## Metering -/

theorem closeSlip_kept (s : State) : Kept s (closeSlip s) := by
  unfold closeSlip
  extract_lets slip m s1
  have h1 : Kept s s1 := setMeter_kept ..
  refine h1.trans ?_
  split
  · extract_lets beyond s2 s3
    have h2 : Kept s1 s2 := modCoil_kept ..
    have h3 : Kept s2 s3 := .ite fun _ => warn_kept ..
    refine h2.trans (h3.trans ?_)
    split
    · exact setMeter_kept ..
    · exact discardSlip_kept ..
  · exact discardSlip_kept ..

theorem takeStall_kept (s : State) : Kept s (takeStall s) := by
  unfold takeStall
  extract_lets m s1 s2
  have h1 : Kept s s1 := setMeter_kept ..
  have h2 : Kept s1 s2 := warn_kept ..
  refine h1.trans (h2.trans ?_)
  split
  · exact .ite fun _ => (modCoil_kept ..).trans (discardSlip_kept _)
  · exact .refl _

theorem takeRecovery_kept (s : State) : Kept s (takeRecovery s) := (setMeter_kept _ s).trans (warn_kept ..)

theorem addUnassigned_kept (d : Nat) (s : State) : Kept s (addUnassigned d s) := setCoiler_kept ..

theorem meterCap_kept (d : Nat) (s : State) : Kept s (meterCap d s) := by
  unfold meterCap
  extract_lets s1 dist m s2 s3 m' s4
  have h1 : Kept s s1 := by
    dsimp only [s1]
    split
    · split
      · exact .refl s
      · exact coilIncrement_kept ..
    · exact .ite fun _ => addUnassigned_kept ..
  have h2 : Kept s1 s2 := setMeter_kept ..
  have h3 : Kept s2 s3 := .ite fun _ => takeStall_kept ..
  have h4 : Kept s3 s4 := setMeter_kept ..
  exact .ite fun _ => h1.trans (h2.trans (h3.trans (.ite fun _ => h4.trans (.ite fun _ => closeSlip_kept ..))))

theorem meterWheel_kept (d : Nat) (s : State) : Kept s (meterWheel d s) := by
  unfold meterWheel
  extract_lets m s1 s2 s3
  have h1 : Kept s s1 := setMeter_kept ..
  have h2 : Kept s1 s2 := .ite fun _ => takeRecovery_kept ..
  have h3 : Kept s2 s3 := by
    dsimp only [s3]
    split
    · exact .ite fun _ => coilIncrement_kept ..
    · exact addUnassigned_kept ..
  exact .ite fun _ => h1.trans (h2.trans (h3.trans (.ite fun _ => setMeter_kept ..)))

/-! ## Lay and twist -/

theorem twiSta_ne_staK0 (t : Twi) : twiSta t ≠ staK0 := by revert t; decide

theorem stateOfKind_twist (t : Twi) (st : RunState) (h : st = .standby ∨ st = .runUp ∨ st = .steady ∨ st = .runDown) :
    stateOfKind (kindOf (twiSta t)) st = true := by
  rcases h with rfl | rfl | rfl | rfl <;> revert t <;> decide

/-- A twisting station in a state that needs an empty set moves to another state of its kind. -/
theorem changeState_twist_kept (t : Twi) (st : RunState) (d : BitVec 16) (s : State)
    (hst : st = .standby ∨ st = .runUp ∨ st = .steady ∨ st = .runDown)
    (h : (s.station (twiSta t)).state = .standby ∨ (s.station (twiSta t)).state = .runUp ∨
      (s.station (twiSta t)).state = .steady) : Kept s (changeState (twiSta t) st d s) := by
  refine changeState_kept _ _ d s (twiSta_ne_staK0 t) (fun hl => ?_) (by rcases hst with rfl | rfl | rfl | rfl <;> simp)
  obtain ⟨hlot, hc⟩ := hl.quiet (by tauto)
  exact .move (stateOfKind_twist t st hst) hlot (by rcases hst with rfl | rfl | rfl | rfl <;> simp) (fun _ => hc)

theorem enterRunDown_kept (t : Twi) (s : State)
    (h : (s.station (twiSta t)).state = .runUp ∨ (s.station (twiSta t)).state = .steady) : Kept s (enterRunDown t s) :=
  (setTwist_kept t _ s).trans (changeState_twist_kept t _ _ _ (by simp) (by tauto))

theorem reopen_kept (t : Twi) (s : State) : Kept s (reopen t s) := .ite fun _ => modLay_kept ..

theorem supplyLayStat_kept (t : Twi) (f : Int) (d : Bool) (s : State) : Kept s (supplyLayStat t f d s) := by
  unfold supplyLayStat
  refine .ite fun _ => ?_
  split
  · exact modCoil_kept ..
  · exact .refl s

theorem closeRunUp_kept (t : Twi) (e : Int) (tol : Nat) (s : State) (h : (s.station (twiSta t)).state = .runUp) :
    Kept s (closeRunUp t e tol s) := by
  unfold closeRunUp
  extract_lets w good
  split
  · exact (setTwist_kept t _ s).trans (changeState_twist_kept t _ _ _ (by simp) (.inr (.inl h)))
  · exact modLay_kept ..

theorem closeSteady_kept (t : Twi) (e f : Int) (tol : Nat) (s : State) : Kept s (closeSteady t e f tol s) := by
  unfold closeSteady
  extract_lets i severe beyond drift drifted s1 s2 s3 s4 haltSevere haltDrift s5
  have h1 : Kept s s1 := modLay_kept ..
  have h2 : Kept s1 s2 := supplyLayStat_kept ..
  have h3 : Kept s2 s3 := .ite fun _ => raise_kept ..
  have h4 : Kept s3 s4 := .ite fun _ => warn_kept ..
  have h5 : Kept s4 s5 := .ite fun _ => raiseCause_kept _ _ (by decide)
  exact h1.trans (h2.trans (h3.trans (h4.trans (h5.trans (.ite fun _ => raiseCause_kept _ _ (by decide))))))

theorem closeWindow_kept (t : Twi) (s : State) : Kept s (closeWindow t s) := by
  unfold closeWindow
  split
  · extract_lets l lay e f st s1 s2
    have h1 : Kept s s1 := modLay_kept ..
    have h2 : Kept s1 s2 := by
      dsimp only [s2]
      split
      · next h => exact closeRunUp_kept _ _ _ _ h
      · exact .ite fun _ => closeSteady_kept ..
    exact h1.trans (h2.trans (reopen_kept ..))
  · exact modLay_kept ..

theorem layFly_kept (t : Twi) (s : State) : Kept s (layFly t s) := by
  unfold layFly
  extract_lets l s1
  have h1 : Kept s s1 := modLay_kept ..
  exact .ite fun _ => h1.trans (.ite fun _ => closeWindow_kept ..)

theorem layCap_kept (t : Twi) (d : Nat) (s : State) : Kept s (layCap t d s) := .ite fun _ => modLay_kept ..

theorem expireWindow_kept (t : Twi) (s : State) : Kept s (expireWindow t s) := (modLay_kept ..).trans (warn_kept ..)

theorem startTwist_kept (t : Twi) (s : State) (h : (s.station (twiSta t)).state = .standby) : Kept s (startTwist t s) :=
  (setTwist_kept t _ s).trans (changeState_twist_kept t _ _ _ (by simp) (.inl h))

theorem startCoil_station (id : ArborId) (n : Nat) (s : State) (i : Sta) : (startCoil id n s).station i = s.station i := by
  unfold startCoil addStart
  rw [modLot_frame]
  extract_lets s1 seq c c' s2
  split <;> rfl

theorem runCloser_kept (s : State) (h : (s.station staC0).state = .standby) : Kept s (runCloser s).1 := by
  unfold runCloser
  split
  · exact startTwist_kept 4 s h
  · split
    · next id l _ _ =>
      split
      · next hc =>
        exact (startCoil_kept id l.number s hc).trans (startTwist_kept 4 _ (by rw [startCoil_station]; exact h))
      · exact .refl s
    · exact .refl s

theorem runTwist_kept (t : Twi) (s : State) : Kept s (runTwist t s).1 := by
  unfold runTwist
  split
  · exact .refl s
  · next h =>
    have h := not_not.mp h
    split
    · split
      · split
        · exact startTwist_kept t s h
        · exact .refl s
      · exact .refl s
    · next hn =>
      have ht : twiSta t = staC0 := by
        clear * - hn; revert t; decide
      split
      · exact runCloser_kept s (ht ▸ h)
      · exact .refl s

theorem stopTwist_kept (t : Twi) (s : State) : Kept s (stopTwist t s).1 := by
  unfold stopTwist
  split
  · next h => exact enterRunDown_kept t s (.inl h)
  · next h => exact enterRunDown_kept t s (.inr h)
  · exact .refl s
  · exact .refl s

theorem endFillOf_kept (t : Twi) (s : State) : Kept s (endFillOf t s) := by
  unfold endFillOf
  split
  · exact endFill_kept ..
  · exact .refl s

theorem becomeStill_kept (t : Twi) (s : State) : Kept s (becomeStill t s) := by
  unfold becomeStill
  extract_lets i w s1
  split
  · next h =>
    have h1 : Kept s s1 := setTwist_kept ..
    refine h1.trans (Kept.trans ?_ (endFillOf_kept ..))
    refine moveTo_kept _ _ s1 (twiSta_ne_staK0 t) (fun hl => ?_) (fun e => ?_)
    · have hlot := hl.lot (by rw [show (s1.station i).state = _ from h]; simp)
        (by rw [show (s1.station i).state = _ from h]; simp)
      split
      · next hc => exact .move (stateOfKind_twist t _ (by simp)) hlot (by simp) (fun _ => hc)
      · exact .halted rfl
    · intro hc
      rw [if_pos hc] at e
      cases e
  · next h => exact (setTwist_kept t _ s).trans (changeState_twist_kept t _ _ _ (by simp) (.inr (.inl h)))
  · next h => exact (setTwist_kept t _ s).trans (changeState_twist_kept t _ _ _ (by simp) (.inr (.inr h)))
  · exact .refl s

theorem flyStill_kept (t : Twi) (s : State) : Kept s (flyStill t s) := setTwist_kept ..
theorem longRunUp_kept (t : Twi) (s : State) : Kept s (longRunUp t s) := (setTwist_kept t _ s).trans (warn_kept ..)
theorem longRunDown_kept (t : Twi) (s : State) : Kept s (longRunDown t s) := (setTwist_kept t _ s).trans (warn_kept ..)

end Sys2Proof.Laws
end

section
/-! What the requests of lots, stations, links and settings keep in order. -/

namespace Sys2Proof.Laws

open Sys2Proof.Machine Sys2Proof.Safety

/-! ## Constructions and their fields -/

theorem clampNat_bounds {lo hi : Nat} (h : lo ≤ hi) (v : Nat) : lo ≤ clampNat lo hi v ∧ clampNat lo hi v ≤ hi := by
  unfold clampNat
  split
  · exact ⟨le_refl _, h⟩
  · split
    · exact ⟨h, le_refl _⟩
    · omega

/-- A construction in order that orders what is started (R31). -/
def BuildFits (started : Nat) (b : Build) : Prop := BuildOk b ∧ started ≤ b.ordered

theorem orderedCount_bounds {hi started : Nat} (h1 : 1 ≤ hi) (hs : started ≤ hi) (v : Nat) :
    1 ≤ (orderedCount hi started v).1 ∧ (orderedCount hi started v).1 ≤ hi ∧ started ≤ (orderedCount hi started v).1 := by
  have := clampNat_bounds h1 v
  unfold orderedCount
  dsimp only
  omega

theorem strand_write_fits {c : StrandLot} {started no v : Nat} {r : StrandLot × Bool} (h : BuildFits started (.strand c))
    (hw : c.write started no v = some r) : BuildFits started (.strand r.1) := by
  obtain ⟨hb, hs⟩ := h
  simp only [BuildOk, Build.ordered] at hb hs
  unfold StrandLot.write at hw
  split at hw
  case h_1 =>
    obtain ⟨d, -, rfl⟩ := Option.map_eq_some_iff.mp hw
    exact ⟨hb, hs⟩
  case h_6 =>
    cases hw
    have := orderedCount_bounds (hi := 999) (started := started) (by decide) (by omega) v
    unfold BuildFits BuildOk Build.ordered
    dsimp only
    omega
  case h_7 => cases hw
  all_goals
    cases hw
    unfold BuildFits BuildOk Build.ordered numeric
    dsimp only
  · have := clampNat_bounds (show 20 ≤ 60000 by decide) v
    omega
  · have := clampNat_bounds (show 5 ≤ 250 by decide) v
    omega
  · have := clampNat_bounds (show 4 ≤ 250 by decide) v
    omega
  · have := clampNat_bounds (show 1 ≤ 60000 by decide) v
    omega

theorem rope_write_fits {c : RopeLot} {started no v : Nat} {r : RopeLot × Bool} (h : BuildFits started (.rope c))
    (hw : c.write started no v = some r) : BuildFits started (.rope r.1) := by
  obtain ⟨hb, hs⟩ := h
  simp only [BuildOk, Build.ordered] at hb hs
  unfold RopeLot.write at hw
  split at hw
  case h_1 =>
    obtain ⟨d, -, rfl⟩ := Option.map_eq_some_iff.mp hw
    exact ⟨hb, hs⟩
  case h_5 =>
    split at hw
    · cases hw
      unfold BuildFits BuildOk Build.ordered
      dsimp only
      omega
    · cases hw
  case h_6 =>
    split at hw
    · cases hw
      unfold BuildFits BuildOk Build.ordered
      dsimp only
      omega
    · cases hw
  case h_9 =>
    cases hw
    have := orderedCount_bounds (hi := 999) (started := started) (by decide) (by omega) v
    unfold BuildFits BuildOk Build.ordered
    dsimp only
    omega
  case h_13 => cases hw
  all_goals
    cases hw
    unfold BuildFits BuildOk Build.ordered numeric
    dsimp only [RopeLot.half]
  · have := clampNat_bounds (show 20 ≤ 60000 by decide) v
    omega
  · have := clampNat_bounds (show 5 ≤ 250 by decide) v
    omega
  · have := clampNat_bounds (show 4 ≤ 250 by decide) v
    omega
  · have := clampNat_bounds (show 1000 ≤ 1500 by decide) v
    omega
  · have := clampNat_bounds (show 1 ≤ 20000 by decide) v
    omega
  · have := clampNat_bounds (Nat.zero_le (min 65535 (c.coilLen * 500))) v
    omega
  · have := clampNat_bounds (Nat.zero_le 1000) v
    omega
  · have := clampNat_bounds (show 1 ≤ 100 by decide) v
    omega

theorem net_write_fits {c : NetLot} {started no v : Nat} {r : NetLot × Bool} (h : BuildFits started (.net c))
    (hw : c.write started no v = some r) : BuildFits started (.net r.1) := by
  obtain ⟨hb, hs⟩ := h
  simp only [BuildOk, Build.ordered] at hb hs
  unfold NetLot.write at hw
  split at hw
  case h_1 =>
    split at hw
    · cases hw
      unfold BuildFits BuildOk Build.ordered
      dsimp only
      omega
    · cases hw
  case h_6 =>
    cases hw
    exact ⟨hb, hs⟩
  case h_7 =>
    cases hw
    have := orderedCount_bounds (hi := 255) (started := started) (by decide) (by omega) v
    unfold BuildFits BuildOk Build.ordered
    dsimp only
    omega
  case h_9 => cases hw
  all_goals
    cases hw
    unfold BuildFits BuildOk Build.ordered numeric
    dsimp only
  · have := clampNat_bounds (show 10 ≤ 2000 by decide) v
    omega
  · have := clampNat_bounds (Nat.zero_le 500) v
    omega
  all_goals
    have := clampNat_bounds (Nat.zero_le 255) v
    omega

theorem write_fits {b : Build} {started no v : Nat} {r : Build × Bool} (h : BuildFits started b)
    (hw : b.write started no v = some r) : BuildFits started r.1 := by
  unfold Build.write at hw
  cases b with
  | strand c =>
    obtain ⟨r', hr, rfl⟩ := Option.map_eq_some_iff.mp hw
    exact strand_write_fits h hr
  | rope c =>
    obtain ⟨r', hr, rfl⟩ := Option.map_eq_some_iff.mp hw
    exact rope_write_fits h hr
  | net c =>
    obtain ⟨r', hr, rfl⟩ := Option.map_eq_some_iff.mp hw
    exact net_write_fits h hr

/-- The pairs of a LOT_WRITE keep a construction in order (R30, R31). -/
theorem writeAll_fits {started : Nat} (pairs : List (Byte × BitVec 32)) :
    ∀ {b : Build} {clamped : Bool} {r : Build × Bool}, BuildFits started b →
      Build.writeAll started pairs b clamped = some r → BuildFits started r.1 := by
  induction pairs with
  | nil =>
    intro b clamped r h hw
    cases hw; exact h
  | cons pair rest ih =>
    intro b clamped r h hw
    unfold Build.writeAll at hw
    split at hw
    · next r' hr => exact ih (write_fits h hr) hw
    · cases hw

theorem freshBuild_ok {kind : Byte} {b : Build} (h : freshBuild kind = some b) : BuildOk b := by
  unfold freshBuild at h
  split at h
  · cases h; simp [BuildOk, StrandLot.fresh]
  · split at h
    · cases h; simp [BuildOk, RopeLot.fresh]
    · split at h
      · cases h; simp [BuildOk, NetLot.fresh]
      · cases h

/-! ## Requests on lots -/

theorem setLot_kept (k : Slot) (o : Option Lot) (s : State)
    (h : LotTableOk s.lots → ∀ a, o = some a → LotOk a ∧ ∀ j b, j ≠ k → s.lots[j] = some b → b.number ≠ a.number) :
    Kept s (s.setLot k o) :=
  ⟨⟨fun hl => lotTableOk_setLot hl k o (h hl), id, rfl⟩, fun _ => id⟩

theorem serveLotCreate_kept (lot : BitVec 16) (kind : Byte) (s : State) : Kept s (serveLotCreate lot kind s).1 := by
  unfold serveLotCreate
  extract_lets n
  split
  · exact .refl s
  · next b hb =>
    split
    · exact .refl s
    · next hn =>
      split
      · exact .refl s
      · next hd =>
        split
        · exact .refl s
        · next k _ =>
          refine (setLot_kept k _ s fun _ a ha => ?_).trans (raise_kept ..)
          cases ha
          refine ⟨⟨Nat.pos_of_ne_zero hn, ?_, freshBuild_ok hb, Nat.zero_le _⟩, fun j b _ hj => ?_⟩
          · exact Nat.le_of_lt_succ lot.isLt
          · rw [Option.not_isSome_iff_eq_none, lot?_eq_none] at hd
            exact slotOf_eq_none.mp hd j b hj

theorem serveLotWrite_kept (lot : BitVec 16) (pairs : List (Byte × BitVec 32)) (s : State) :
    Kept s (serveLotWrite lot pairs s).1 := by
  unfold serveLotWrite
  extract_lets n
  split
  · exact .refl s
  · next l hl =>
    split
    · exact .refl s
    · split
      · exact .refl s
      · next b clamped hw =>
        refine modLot_kept n (fun l => { l with build := b }) s fun l' hl' => ⟨rfl, fun ⟨h1, h2, h3, h4⟩ => ?_⟩
        rw [hl] at hl'
        cases hl'
        obtain ⟨hb, hs⟩ := writeAll_fits pairs ⟨h3, h4⟩ hw
        exact ⟨h1, h2, hb, hs⟩

theorem serveLotCheck_kept (lot value : BitVec 16) (s : State) : Kept s (serveLotCheck lot value s).1 := by
  unfold serveLotCheck
  extract_lets n
  split
  · exact .refl s
  · split
    · exact .refl s
    · split
      · exact .refl s
      · extract_lets v
        split
        · exact (modLot_kept_of_same n (fun l => { l with check := v }) s fun _ => ⟨rfl, rfl, Nat.le_refl _⟩).trans
            (moveLot_kept ..)
        · exact .refl s

theorem serveLotReopen_kept (lot : BitVec 16) (s : State) : Kept s (serveLotReopen lot s).1 := by
  unfold serveLotReopen
  split
  · exact .refl s
  · split
    · exact moveLot_kept ..
    · exact .refl s

theorem serveLotHold_kept (lot : BitVec 16) (s : State) : Kept s (serveLotHold lot s).1 := by
  unfold serveLotHold
  split
  · exact .refl s
  · split
    · exact (moveLot_kept ..).trans (raiseOnAll_kept _ _ (by decide))
    · exact .refl s
    · exact .refl s

theorem serveLotResume_kept (lot : BitVec 16) (s : State) : Kept s (serveLotResume lot s).1 := by
  unfold serveLotResume
  split
  · exact .refl s
  · split
    · exact (moveLot_kept ..).trans (removeFromAll_kept _ _ (by decide))
    · exact removeFromAll_kept _ _ (by decide)
    · exact removeFromAll_kept _ _ (by decide)
    · exact .refl s

theorem serveLotClose_kept (lot : BitVec 16) (s : State) : Kept s (serveLotClose lot s).1 := by
  unfold serveLotClose
  split
  · exact .refl s
  · split
    · exact .refl s
    · exact .refl s
    · exact (moveLot_kept ..).trans ((raiseOnAll_kept _ _ (by decide)).trans (closeArbor_kept ..))

theorem serveLotDelete_kept (lot : BitVec 16) (s : State) : Kept s (serveLotDelete lot s).1 := by
  unfold serveLotDelete
  split
  · split
    · exact (setLot_kept _ none s fun _ a ha => by cases ha).trans (raise_kept ..)
    · exact .refl s
  · exact .refl s

/-! ### Attach -/

theorem setStation_stored (i : Sta) (r : Station) (s : State) : Stored s (s.setStation i r) := ⟨id, id, rfl⟩

theorem moveTo_stored (i : Sta) (st : RunState) (s : State) : Stored s (moveTo i st s) :=
  (Aside.of_move (moveTo_move i st s)).stored

theorem joinLot_stored (i : Sta) (n : Nat) (s : State) : Stored s (joinLot i n s) :=
  (setStation_stored i { s.station i with lot := some n } s).trans
    (modLot_kept_of_same n (fun l => { l with stations := l.stations.add i.val }) _
      fun _ => ⟨rfl, rfl, Nat.le_refl _⟩).toStored

theorem joinLot_station (i : Sta) (n : Nat) (s : State) :
    (joinLot i n s).station i = { s.station i with lot := some n } := by
  unfold joinLot
  rw [modLot_frame]
  exact State.setStation_station_self ..

theorem joinLot_station_ne (i j : Sta) (n : Nat) (s : State) (h : j ≠ i) : (joinLot i n s).station j = s.station j := by
  unfold joinLot
  rw [modLot_frame]
  exact State.setStation_station_ne _ _ _ _ h

theorem zeroAcc_kept (i : Sta) (s : State) : Kept s (zeroAcc i s) := by
  unfold zeroAcc
  split
  · exact setTwist_kept ..
  · exact .ite fun _ => setCoiler_kept ..

theorem zeroAcc_station (i j : Sta) (s : State) : (zeroAcc i s).station j = s.station j := by
  unfold zeroAcc
  split
  · rfl
  · split <;> rfl

theorem attachPair_kept (s : State) : Kept s (attachPair s) := .same rfl rfl rfl rfl rfl rfl

theorem attachPair_station (j : Sta) (s : State) : (attachPair s).station j = s.station j := rfl

theorem feedOutAtAttach_kept (i : Sta) (s : State) : Kept s (feedOutAtAttach i s) := by
  unfold feedOutAtAttach
  extract_lets out
  split
  · exact .refl s
  · exact (raiseCause_kept i s (by decide)).trans (Kept.foldl _ (fun _ _ => raise_kept ..) _ _)

/-- A station that has taken a lot, and has gone from IDLE to a state at rest of its kind. -/
theorem looseOk_attached {i : Sta} {r : Station} {st : RunState} (n : Nat) (h : LooseOk i r) (hi : r.state = .idle)
    (hk : stateOfKind (kindOf i) st = true) (hst : st = .standby ∨ st = .active) :
    LooseOk i { r with lot := some n, state := st } := by
  have hl : r.lot = none := by
    by_contra e
    exact (h.2.2 e).1 hi
  have hc : r.causes = 0 := by
    rcases h.2.1 hl with e | ⟨-, e⟩
    · rw [e] at hi; cases hi
    · exact e
  exact ⟨hk, nofun, fun _ => ⟨by rcases hst with rfl | rfl <;> simp, fun _ => hc⟩⟩

/-- The stations after a lot has been taken by a strander, a loom, or C0 with K0 (R37). -/
theorem attached_fine {o : Set Sta} {s t : State} (i : Sta) (n : Nat) (h : Fine o s) (hi : (s.station i).state = .idle)
    (hk : i = staC0 → (s.station staK0).state = .idle) (hn : i ≠ staK0)
    (hti : t.station i = { s.station i with lot := some n, state := .standby })
    (htk : i = staC0 → t.station staK0 = { s.station staK0 with lot := some n, state := .active })
    (htj : ∀ j, j ≠ i → (i = staC0 → j ≠ staK0) → t.station j = s.station j) : Fine o t := by
  have hkind : ∀ i : Sta, i ≠ staK0 → stateOfKind (kindOf i) .standby = true := by decide
  have ok : LooseOk i (t.station i) := by rw [hti]; exact looseOk_attached n (h.1.1 i) hi (hkind i hn) (.inl rfl)
  by_cases hc : i = staC0
  · subst hc
    have okk : LooseOk staK0 (t.station staK0) := by
      rw [htk rfl]; exact looseOk_attached n (h.1.1 _) (hk rfl) (by decide) (.inr rfl)
    have hx := (coilerHaltExact_iff s).mp h.2
    refine ⟨⟨fun j => ?_, fun j hj hh => ?_⟩, (coilerHaltExact_iff t).mpr ?_⟩
    · by_cases e : j = staC0
      · rw [e]; exact ok
      · by_cases e' : j = staK0
        · rw [e']; exact okk
        · rw [htj j e fun _ => e']; exact h.1.1 j
    · by_cases e : j = staC0
      · rw [e, hti] at hh; cases hh
      · by_cases e' : j = staK0
        · rw [e', htk rfl] at hh; cases hh
        · rw [htj j e fun _ => e'] at hh ⊢; exact h.1.2 j hj hh
    · unfold State.has at hx ⊢
      rw [htk rfl, hti]
      rw [hk rfl] at hx
      simp only [reduceCtorEq, false_and, iff_false, Bool.not_eq_true] at hx
      simp [hx]
  · have htj' : ∀ j, j ≠ i → t.station j = s.station j := fun j hj => htj j hj fun e => absurd e hc
    refine ⟨h.1.write i htj' ok (by rw [hti]; simp) fun _ _ => id, coilerHaltExact_of_same h.2 ?_ ?_ ?_⟩
    · unfold State.has; rw [htj' _ (Ne.symm hc)]
    · rw [htj' _ (Ne.symm hn)]
    · rw [htj' _ (Ne.symm hc)]

/-- An attach before FEED_OUT and the loom's own record: the joins, the lot's move, the stations' moves. -/
def attachCore (i : Sta) (l : Lot) (s : State) : State :=
  let s1 := zeroAcc i (joinLot i l.number s)
  let s2 := if i == staC0 then zeroAcc staK0 (joinLot staK0 l.number s1) else s1
  let s3 := if l.state = .ready then moveLot l.number .active s2 else s2
  let s4 := moveTo i .standby s3
  if i == staC0 then attachPair (moveTo staK0 .active s4) else s4

theorem attachLot_eq (i : Sta) (l : Lot) (s : State) : attachLot i l s =
    match loomOf i, l.build with
    | some k, .net c => feedOutAtAttach i (attachLoom k c (attachCore i l s))
    | _, _ => if i == staC0 then feedOutAtAttach i (attachCore i l s) else attachCore i l s := rfl

theorem moveLot_station (n : Nat) (st : LotState) (s : State) (j : Sta) : (moveLot n st s).station j = s.station j := by
  unfold moveLot
  rw [(raise_frame ..).station, modLot_frame]; rfl

theorem attachCore_kept (i : Sta) (l : Lot) (s : State) (hi : (s.station i).state = .idle)
    (hk : i = staC0 → (s.station staK0).state = .idle) (hn : i ≠ staK0) : Kept s (attachCore i l s) := by
  unfold attachCore
  extract_lets s1 s2 s3 s4
  have h1 : Stored s s1 := (joinLot_stored ..).trans (zeroAcc_kept ..).toStored
  have h2 : Stored s1 s2 := by
    dsimp only [s2]; split
    · exact (joinLot_stored ..).trans (zeroAcc_kept ..).toStored
    · exact .refl _
  have h3 : Stored s2 s3 := (Kept.ite fun _ => moveLot_kept ..).toStored
  have h4 : Stored s3 s4 := moveTo_stored ..
  have e1 : ∀ j, s1.station j = (joinLot i l.number s).station j := fun j => zeroAcc_station ..
  have e3 : ∀ j, s3.station j = s2.station j := by
    intro j; dsimp only [s3]; split
    · exact moveLot_station ..
    · rfl
  by_cases hc : i = staC0
  · subst hc
    have e2 : ∀ j, s2.station j = (joinLot staK0 l.number s1).station j := fun j =>
      zeroAcc_station staK0 j (joinLot staK0 l.number s1)
    rw [if_pos (by decide)]
    refine ⟨((h1.trans h2).trans (h3.trans h4)).trans ((moveTo_stored ..).trans (attachPair_kept _).toStored), fun o hf => ?_⟩
    refine attached_fine staC0 l.number hf hi hk hn ?_ (fun _ => ?_) fun j hj hj' => ?_
    · rw [attachPair_station, moveTo_station_ne _ _ _ _ (by decide), moveTo_station, e3, e2,
        joinLot_station_ne _ _ _ _ (by decide), e1, joinLot_station]
    · rw [attachPair_station, moveTo_station, moveTo_station_ne _ _ _ _ (by decide), e3, e2, joinLot_station, e1,
        joinLot_station_ne _ _ _ _ (by decide)]
    · rw [attachPair_station, moveTo_station_ne _ _ _ _ (hj' rfl), moveTo_station_ne _ _ _ _ hj, e3, e2,
        joinLot_station_ne _ _ _ _ (hj' rfl), e1, joinLot_station_ne _ _ _ _ hj]
  · have hb : (i == staC0) = false := beq_eq_false_iff_ne.mpr hc
    have e2 : s2 = s1 := by dsimp only [s2]; rw [hb]; rfl
    rw [if_neg (by simp [hb])]
    refine ⟨(h1.trans h2).trans (h3.trans h4), fun o hf => ?_⟩
    refine attached_fine i l.number hf hi hk hn ?_ (fun e => absurd e hc) fun j hj _ => ?_
    · rw [moveTo_station, e3, e2, e1, joinLot_station]
    · rw [moveTo_station_ne _ _ _ _ hj, e3, e2, e1, joinLot_station_ne _ _ _ _ hj]

theorem serveLotAttach_kept (station : Byte) (lot : BitVec 16) (s : State) : Kept s (serveLotAttach station lot s).1 := by
  unfold serveLotAttach
  split
  · exact .refl s
  · next i _ =>
    split
    · exact .refl s
    · next hi =>
      split
      · exact .refl s
      · next l _ =>
        split
        · exact .refl s
        · split
          · exact .refl s
          · next hfit =>
            split
            · exact .refl s
            · next hk =>
              split
              · exact .refl s
              · have hn : i ≠ staK0 := by
                  rintro rfl
                  cases hb : l.build <;> rw [hb] at hfit <;> exact hfit rfl
                have hc := attachCore_kept i l s (not_not.mp hi) (fun e => not_not.mp fun e' => hk ⟨e, e'⟩) hn
                refine hc.trans (?_ : Kept _ (attachLot i l s))
                rw [attachLot_eq]
                split
                · exact (setLoom_kept ..).trans (feedOutAtAttach_kept ..)
                · exact .ite fun _ => feedOutAtAttach_kept ..

/-! ### Detach -/

/-- Removals one after the other, on the station's record. -/
theorem dropAll_station (i : Sta) (cs : List Cause) : ∀ s : State,
    ((cs.foldl (fun s c => dropCause i c s) s).station i).state = (s.station i).state ∧
      ((cs.foldl (fun s c => dropCause i c s) s).station i).lot = (s.station i).lot ∧
      (∀ d, (cs.foldl (fun s c => dropCause i c s) s).has i d = (s.has i d && decide (d ∉ cs))) ∧
      ∀ j, j ≠ i → (cs.foldl (fun s c => dropCause i c s) s).station j = s.station j := by
  induction cs with
  | nil => intro s; simp
  | cons c cs ih =>
    intro s
    obtain ⟨h1, h2, h3, h4⟩ := ih (dropCause i c s)
    refine ⟨h1.trans (dropCause_state ..), h2.trans (dropCause_lot ..), fun d => ?_, fun j hj => ?_⟩
    · rw [List.foldl_cons, h3, dropCause_has]
      by_cases e : c = d
      · subst e; simp
      · simp [e, Ne.symm e]
    · exact (h4 j hj).trans (dropCause_station_ne _ _ _ _ hj)

theorem dropAll_stored (i : Sta) (cs : List Cause) (s : State) :
    Stored s (cs.foldl (fun s c => dropCause i c s) s) :=
  foldl_frame Stored.refl Stored.trans _ (fun s c => (Aside.of_move (dropCause_move i c s)).stored) cs s

theorem leaveLot_stored (i : Sta) (s : State) : Stored s (leaveLot i s) := by
  unfold leaveLot
  extract_lets s1 r s2
  have h1 : Stored s s1 := dropAll_stored ..
  have h2 : Stored s1 s2 := setStation_stored ..
  exact h1.trans (h2.trans (moveTo_stored ..))

theorem leaveLot_station_ne (i j : Sta) (s : State) (h : j ≠ i) : (leaveLot i s).station j = s.station j := by
  unfold leaveLot
  extract_lets s1 r s2
  rw [moveTo_station_ne _ _ _ _ h, State.setStation_station_ne _ _ _ _ h]
  exact (dropAll_station i conditional s).2.2.2 j h

/-- A station that has left its lot is IDLE or HALTED, without the conditional causes (R3, R38). -/
theorem leaveLot_station (i : Sta) (s : State) :
    ((leaveLot i s).station i).lot = none ∧
      ((leaveLot i s).station i).state = (if ((leaveLot i s).station i).causes = 0 then .idle else .halted) ∧
      ∀ d, (leaveLot i s).has i d = (s.has i d && decide (d ∉ conditional)) := by
  have e : (leaveLot i s).station i =
      { (conditional.foldl (fun s c => dropCause i c s) s).station i with
        lot := none
        state := if ((conditional.foldl (fun s c => dropCause i c s) s).station i).causes = 0 then .idle else .halted } := by
    unfold leaveLot
    extract_lets s1 r s2
    have e2 : s2.station i = { r with lot := none } := State.setStation_station_self ..
    rw [moveTo_station, e2]
  refine ⟨by rw [e], by rw [e], fun d => ?_⟩
  rw [← (dropAll_station i conditional s).2.2.1 d]
  unfold State.has
  rw [e]

theorem looseOk_left {i : Sta} {r : Station} (hl : r.lot = none) (hs : r.state = if r.causes = 0 then .idle else .halted) :
    LooseOk i r ∧ (r.state = .halted → r.causes ≠ 0) :=
  (stationOk_iff i r).mp
    ⟨by rw [hs]; split <;> cases kindOf i <;> rfl, fun _ => hs, fun h => absurd hl h⟩

theorem leaveLot_kept (i : Sta) (s : State) (h : i = staK0 → (s.station staC0).lot = none) : Kept s (leaveLot i s) := by
  obtain ⟨hl, hs, hh⟩ := leaveLot_station i s
  obtain ⟨h1, h2⟩ := looseOk_left (i := i) hl hs
  have hne := fun j hj => leaveLot_station_ne i j s hj
  refine ⟨leaveLot_stored i s, fun o hf => ⟨hf.1.write i hne h1 (fun _ => h2) fun _ _ => id, (coilerHaltExact_iff _).mpr ?_⟩⟩
  have hx := (coilerHaltExact_iff s).mp hf.2
  by_cases hc : i = staC0
  · subst hc
    rw [hh, hl]
    simp [conditional]
  · have hb : (leaveLot i s).has staC0 .coilerHalt = s.has staC0 .coilerHalt := by
      unfold State.has; rw [hne _ (Ne.symm hc)]
    rw [hb, hx, hne _ (Ne.symm hc)]
    by_cases hk : i = staK0
    · simp [h hk]
    · rw [hne _ (Ne.symm hk)]

theorem lotLosesStation_kept (n : Nat) (i : Sta) (s : State) : Kept s (lotLosesStation n i s) :=
  modLot_kept_of_same n (fun l => { l with stations := l.stations.del i.val }) s fun _ => ⟨rfl, rfl, Nat.le_refl _⟩

theorem readyIfLeft_kept (n : Nat) (s : State) : Kept s (readyIfLeft n s) := by
  unfold readyIfLeft
  split
  · exact .ite fun _ => moveLot_kept ..
  · exact .refl s

theorem detachLoom_kept (l : Loom) (s : State) : Kept s (detachLoom l s) := .ite fun _ => rejectPanel_kept ..

theorem detachLot_kept (i : Sta) (n : Nat) (s : State) (hi : i ≠ staK0) : Kept s (detachLot i n s) := by
  unfold detachLot
  extract_lets s1 s2 s3
  have h1 : Kept s s1 := by
    dsimp only [s1]; split
    · exact detachLoom_kept ..
    · exact .refl s
  have h2 : Kept s1 s2 := lotLosesStation_kept ..
  refine h1.trans (h2.trans ?_)
  split
  · have h3 : Kept s2 s3 := (lotLosesStation_kept ..).trans (readyIfLeft_kept ..)
    exact h3.trans ((leaveLot_kept staC0 s3 fun e => absurd e (by decide)).trans
      ((leaveLot_kept staK0 _ fun _ => (leaveLot_station staC0 s3).1).trans (discardSlip_kept _)))
  · exact (readyIfLeft_kept ..).trans (leaveLot_kept i _ fun e => absurd e hi)

theorem serveLotDetach_kept (station : Byte) (s : State) : Kept s (serveLotDetach station s).1 := by
  unfold serveLotDetach
  split
  · exact .refl s
  · next i _ =>
    split
    · split
      · exact .refl s
      · next n _ h =>
        refine detachLot_kept i n s ?_
        rintro rfl
        exact h (by simp [detachRefused])
    · exact .refl s

/-! ## Stations and links -/

theorem clearFaults_kept (i : Sta) (s : State) : Kept s (clearFaults i s) := by
  unfold clearFaults
  extract_lets cs
  refine .ite fun _ => (((Kept.refl s).owing i).dropAll cs fun c hc => ?_).settle
  have hm : c ∈ [Cause.laySevere] ++ plainLatched := by
    dsimp only [cs, clearable] at hc
    split at hc
    · exact List.mem_append_right _ hc
    · exact hc
  clear hc
  revert c
  decide

theorem serveFaultClear_kept (p : Port) (station : Byte) (s : State) : Kept s (serveFaultClear p station s).1 := by
  unfold serveFaultClear
  extract_lets kept run
  have hr : ∀ is, Kept s (run is).1 := fun is => Kept.foldl _ (fun s i => clearFaults_kept i s) is s
  split
  · split
    · exact .refl s
    · exact hr _
  · split
    · exact hr _
    · exact .refl s

theorem bindTo_kept (i : Sta) (o : Option Port) (s : State) : Kept s (bindTo i o s) := setStation_kept i _ s rfl rfl rfl

theorem serveStationBind_kept (p : Port) (station : Byte) (s : State) : Kept s (serveStationBind p station s).1 := by
  unfold serveStationBind
  split
  · exact .refl s
  · split
    · exact bindTo_kept ..
    · split
      · exact .refl s
      · split
        · exact .refl s
        · exact (bindTo_kept ..).trans (offer_kept ..)

theorem serveStationUnbind_kept (station : Byte) (s : State) : Kept s (serveStationUnbind station s).1 := by
  unfold serveStationUnbind
  split
  · exact .refl s
  · split
    · exact .refl s
    · exact bindTo_kept ..

theorem fallSilent_kept (p : Port) (s : State) : Kept s (fallSilent p s) := by
  unfold fallSilent
  extract_lets u s1 s2
  have h1 : Kept s s1 := setPort_kept ..
  have h2 : Kept s1 s2 := raise_kept ..
  exact h1.trans (h2.trans (.ite fun _ => Kept.foldl _ (fun _ _ => .ite fun _ => raiseCause_kept _ _ (by decide)) _ _))

theorem validArrival_kept (p : Port) (s : State) : Kept s (validArrival p s) :=
  (setPort_kept p _ s).trans (validArrival_frame p s).kept

/-! ## Settings -/

theorem setSettings_kept (c : Settings) (s : State) (h : SettingsInRange s.settings → SettingsInRange c) :
    Kept s (s.setSettings c) :=
  ⟨⟨id, fun ⟨h1, h2, h3, h4⟩ => ⟨h h1, h2, h3, h4⟩, rfl⟩, fun _ => id⟩

/-- A vector's entries after one of them is written with a value in range. -/
theorem vector_set_all {α : Type} {n : Nat} {P : α → Prop} {v : Vector α n} (h : ∀ i : Fin n, P v[i]) (k : Nat) (hk : k < n)
    (x : α) (hx : P x) (i : Fin n) : P (v.set k x)[i] := by
  by_cases e : k = i.val
  · subst e; simpa using hx
  · have : (v.set k x)[i] = v[i] := Vector.getElem_set_ne hk i.isLt e
    rw [this]; exact h i

theorem settings_write_inRange {c : Settings} {no v : Nat} {r : Settings × Bool} (h : SettingsInRange c)
    (hw : c.write no v = some r) : SettingsInRange r.1 := by
  unfold Settings.write at hw
  extract_lets num silent at hw
  have hsil : ∀ p, silent p = some r → SettingsInRange r.1 := by
    intro p hp
    obtain ⟨x, -, rfl⟩ := Option.map_eq_some_iff.mp hp
    exact h
  obtain ⟨w1, w2, u1, u2, d1, d2, lm, nd, tl, l1, l2, cp, fl, wh1, wh2⟩ := h
  split at hw
  case h_1 =>
    obtain ⟨x, -, rfl⟩ := Option.map_eq_some_iff.mp hw
    exact ⟨w1, w2, u1, u2, d1, d2, lm, nd, tl, l1, l2, cp, fl, wh1, wh2⟩
  case h_2 =>
    cases hw
    have hb := clampNat_bounds (show 1 ≤ 60 by decide) v
    exact ⟨hb.1, hb.2, u1, u2, d1, d2, lm, nd, tl, l1, l2, cp, fl, wh1, wh2⟩
  case h_3 =>
    obtain ⟨x, -, rfl⟩ := Option.map_eq_some_iff.mp hw
    exact ⟨w1, w2, u1, u2, d1, d2, lm, nd, tl, l1, l2, cp, fl, wh1, wh2⟩
  case h_4 =>
    cases hw
    have hb := clampNat_bounds (show 1 ≤ 240 by decide) v
    exact ⟨w1, w2, hb.1, hb.2, d1, d2, lm, nd, tl, l1, l2, cp, fl, wh1, wh2⟩
  case h_5 =>
    cases hw
    have hb := clampNat_bounds (show 1 ≤ 240 by decide) v
    exact ⟨w1, w2, u1, u2, hb.1, hb.2, lm, nd, tl, l1, l2, cp, fl, wh1, wh2⟩
  case h_6 =>
    split at hw
    · cases hw
      exact ⟨w1, w2, u1, u2, d1, d2, lm, nd, tl, l1, l2, cp, fl, wh1, wh2⟩
    · cases hw
  case h_7 =>
    split at hw
    · cases hw
      exact ⟨w1, w2, u1, u2, d1, d2, lm, nd, tl, l1, l2, cp, fl, wh1, wh2⟩
    · cases hw
  case h_8 =>
    cases hw
    have hb := clampNat_bounds (Nat.zero_le 1000000) v
    exact ⟨w1, w2, u1, u2, d1, d2, hb.2, nd, tl, l1, l2, cp, fl, wh1, wh2⟩
  case h_9 =>
    cases hw
    have hb := clampNat_bounds (show 16 ≤ 256 by decide) v
    exact ⟨w1, w2, u1, u2, d1, d2, lm, vector_set_all (P := fun x => 16 ≤ x ∧ x ≤ 256) nd 0 (by decide) _ hb, tl, l1, l2,
      cp, fl, wh1, wh2⟩
  case h_10 =>
    cases hw
    have hb := clampNat_bounds (show 16 ≤ 256 by decide) v
    exact ⟨w1, w2, u1, u2, d1, d2, lm, vector_set_all (P := fun x => 16 ≤ x ∧ x ≤ 256) nd 1 (by decide) _ hb, tl, l1, l2,
      cp, fl, wh1, wh2⟩
  case h_11 =>
    cases hw
    have hb := clampNat_bounds (Nat.zero_le 32) v
    exact ⟨w1, w2, u1, u2, d1, d2, lm, nd, hb.2, l1, l2, cp, fl, wh1, wh2⟩
  case h_12 =>
    cases hw
    have hb := clampNat_bounds (show 1 ≤ 12 by decide) v
    exact ⟨w1, w2, u1, u2, d1, d2, lm, nd, tl, hb.1, hb.2, cp, fl, wh1, wh2⟩
  case h_13 => exact hsil 0 hw
  case h_14 => exact hsil 1 hw
  case h_15 => exact hsil 2 hw
  case h_16 => exact hsil 3 hw
  case h_17 => cases hw

theorem settings_writeCal_inRange {c : Settings} {no v : Nat} {r : Settings × Bool} (h : SettingsInRange c)
    (hw : c.writeCal no v = some r) : SettingsInRange r.1 := by
  unfold Settings.writeCal at hw
  obtain ⟨w1, w2, u1, u2, d1, d2, lm, nd, tl, l1, l2, cp, fl, wh1, wh2⟩ := h
  have hb := clampNat_bounds (show 1 ≤ 65535 by decide) v
  split at hw
  case h_1 | h_2 =>
    obtain ⟨x, -, rfl⟩ := Option.map_eq_some_iff.mp hw
    exact ⟨w1, w2, u1, u2, d1, d2, lm, nd, tl, l1, l2, cp, fl, wh1, wh2⟩
  case h_3 =>
    cases hw
    exact ⟨w1, w2, u1, u2, d1, d2, lm, nd, tl, l1, l2,
      vector_set_all (P := fun x => 1 ≤ x ∧ x ≤ 65535) cp _ (Fin.isLt _) _ hb, fl, wh1, wh2⟩
  case h_4 =>
    cases hw
    have hb := clampNat_bounds (show 1 ≤ 255 by decide) v
    exact ⟨w1, w2, u1, u2, d1, d2, lm, nd, tl, l1, l2, cp,
      vector_set_all (P := fun x => 1 ≤ x ∧ x ≤ 255) fl _ (Fin.isLt _) _ hb, wh1, wh2⟩
  case h_5 =>
    cases hw
    exact ⟨w1, w2, u1, u2, d1, d2, lm, nd, tl, l1, l2, cp, fl, hb.1, hb.2⟩
  case h_6 => cases hw

theorem writePairs_inRange {f : Settings → Nat → Nat → Option (Settings × Bool)}
    (hf : ∀ {c no v r}, SettingsInRange c → f c no v = some r → SettingsInRange r.1) (pairs : List (Byte × BitVec 32)) :
    ∀ {c : Settings} {clamped : Bool} {r : Settings × Bool}, SettingsInRange c → writePairs f pairs c clamped = some r →
      SettingsInRange r.1 := by
  induction pairs with
  | nil =>
    intro c clamped r h hw
    cases hw; exact h
  | cons pair rest ih =>
    intro c clamped r h hw
    unfold writePairs at hw
    split at hw
    · next r' hr => exact ih (hf h hr) hw
    · cases hw

theorem settingsTaken_kept (wrote : Nat → Bool) (s : State) : Kept s (settingsTaken wrote s) := by
  unfold settingsTaken
  extract_lets s1 s2 s3
  have h1 : Kept s s1 := .ite fun _ => Kept.foldl _ (fun _ _ => .ite fun _ => expireWindow_kept ..) _ _
  have h2 : Kept s1 s2 := .ite fun _ => Kept.foldl _ (fun _ _ => .ite fun _ => longRunUp_kept ..) _ _
  have h3 : Kept s2 s3 := .ite fun _ => Kept.foldl _ (fun _ _ => .ite fun _ => longRunDown_kept ..) _ _
  exact h1.trans (h2.trans (h3.trans (Kept.foldl _ (fun _ _ => .ite fun _ => fallSilent_kept ..) _ _)))

theorem serveSettingsWrite_kept (pairs : List (Byte × BitVec 32)) (s : State) :
    Kept s (serveSettingsWrite pairs s).1 := by
  unfold serveSettingsWrite
  split
  · exact .refl s
  · next c clamped hw =>
    split
    · exact .refl s
    · exact (setSettings_kept c s fun h => writePairs_inRange settings_write_inRange pairs h hw).trans
        (settingsTaken_kept (fun n => pairs.any fun pair => pair.1.toNat == n) _)

theorem discardPending_kept (old : Settings) (s : State) : Kept s (discardPending old s) :=
  Kept.foldl _ (fun _ _ => .ite fun _ => setChannel_kept ..) _ _

theorem serveCalWrite_kept (pairs : List (Byte × BitVec 32)) (s : State) : Kept s (serveCalWrite pairs s).1 := by
  unfold serveCalWrite
  split
  · exact .refl s
  · next c clamped hw =>
    split
    · exact .refl s
    · exact (setSettings_kept c s fun h => writePairs_inRange settings_writeCal_inRange pairs h hw).trans
        (discardPending_kept ..)

theorem serveRouteWrite_kept (cls ports : Byte) (s : State) : Kept s (serveRouteWrite cls ports s).1 := by
  unfold serveRouteWrite
  split
  · split
    · exact .refl s
    · exact setSettings_kept _ s id
  · exact .refl s

theorem serveAttnEnable_kept (p : Port) (value : Byte) (s : State) : Kept s (serveAttnEnable p value s).1 := by
  unfold serveAttnEnable
  split
  · exact setSettings_kept _ s id
  · split
    · exact setSettings_kept _ s id
    · exact .refl s

theorem serveStoreCommit_kept (p : Port) (s : State) : Kept s (serveStoreCommit p s).1 := by
  unfold serveStoreCommit
  split
  · exact .refl s
  · exact ⟨⟨id, fun ⟨h1, h2, h3, _⟩ => ⟨h1, h2, h3, fun x hx => by cases hx; exact h1⟩, rfl⟩, fun _ => id⟩

end Sys2Proof.Laws
end

section
/-! What every command keeps in order, and the two statements about steps (O57, O58). -/

namespace Sys2Proof.Laws

open Sys2Proof.Machine Sys2Proof.Safety

/-! ## The remaining owners -/

/-- An owner's state is kept where every answer it gives leaves a kept state. -/
theorem kept_ite {c : Prop} [Decidable c] {s : State} {a b : Served} (ha : c → Kept s a.1) (hb : ¬c → Kept s b.1) :
    Kept s (if c then a else b).1 := by
  split
  · next h => exact ha h
  · next h => exact hb h

theorem serveStationRun_kept (station : Byte) (s : State) : Kept s (serveStationRun station s).1 := by
  unfold serveStationRun
  split
  · exact .refl s
  · split
    · exact runTwist_kept ..
    · exact runLoom_kept ..
    · exact .refl s

theorem serveStationStop_kept (station : Byte) (s : State) : Kept s (serveStationStop station s).1 := by
  unfold serveStationStop
  split
  · exact .refl s
  · split
    · exact stopTwist_kept ..
    · exact stopLoom_kept ..
    · exact .refl s

theorem serveBobbinRegister_kept (bobbin : BitVec 16) (capacity : BitVec 32) (s : State) :
    Kept s (serveBobbinRegister bobbin capacity s).1 :=
  kept_ite (fun _ => .refl s) fun _ => kept_ite (fun _ => .refl s) fun _ => kept_ite (fun _ => .refl s) fun _ =>
    setBobbins_kept ..

theorem serveBobbinRemove_kept (bobbin : BitVec 16) (s : State) : Kept s (serveBobbinRemove bobbin s).1 := by
  unfold serveBobbinRemove
  split
  · exact .refl s
  · exact kept_ite (fun _ => setBobbins_kept ..) fun _ => .refl s

theorem serveBobbinIssue_kept (station : Byte) (bobbin : BitVec 16) (s : State) :
    Kept s (serveBobbinIssue station bobbin s).1 := by
  unfold serveBobbinIssue
  split
  · exact .refl s
  · split
    · exact .refl s
    · refine kept_ite (fun _ => .refl s) fun _ => ?_
      split
      · exact .refl s
      · refine kept_ite (fun _ => .refl s) fun _ => kept_ite (fun _ => .refl s) fun h => ?_
        split
        · exact issueBobbin_kept _ _ _ _ s (Bool.not_eq_false _ ▸ h)
        · exact .refl s

theorem serveBobbinDoff_kept (station : Byte) (s : State) : Kept s (serveBobbinDoff station s).1 := by
  unfold serveBobbinDoff
  split
  · exact .refl s
  · refine kept_ite (fun _ => .refl s) fun _ => ?_
    split
    · exact kept_ite (fun _ => doffBobbin_kept ..) fun _ => .refl s
    · exact .refl s

theorem serveBobbinMount_kept (station place : Byte) (bobbin : BitVec 16) (s : State) :
    Kept s (serveBobbinMount station place bobbin s).1 := by
  unfold serveBobbinMount
  split
  · exact .refl s
  · split
    · exact .refl s
    · split
      · exact .refl s
      · split
        · exact .refl s
        · exact kept_ite (fun _ => .refl s) fun _ => kept_ite (fun _ => .refl s) fun _ => kept_ite (fun _ => .refl s)
            fun _ => kept_ite (fun _ => .refl s) fun _ => kept_ite (fun _ => .refl s) fun _ => mountBobbin_kept ..

theorem serveBobbinDismount_kept (station place : Byte) (s : State) : Kept s (serveBobbinDismount station place s).1 := by
  unfold serveBobbinDismount
  split
  · exact .refl s
  · split
    · exact .refl s
    · split
      · exact .refl s
      · exact kept_ite (fun _ => .refl s) fun _ => putBobbin_kept ..

theorem serveBobbinReturn_kept (bobbin : BitVec 16) (s : State) : Kept s (serveBobbinReturn bobbin s).1 := by
  unfold serveBobbinReturn
  split
  · exact .refl s
  · exact kept_ite (fun _ => putBobbin_kept ..) fun _ => .refl s

theorem serveBobbinRead_eq (bobbin : BitVec 16) (s : State) : (serveBobbinRead bobbin s).1 = s := by
  unfold serveBobbinRead
  split
  · rfl
  · split <;> rfl

theorem serveFeedRead_eq (station : Byte) (s : State) : (serveFeedRead station s).1 = s := by
  unfold serveFeedRead
  split
  · rfl
  · split <;> rfl

theorem serveSegmentRead_eq (index : Byte) (s : State) : (serveSegmentRead index s).1 = s := by
  unfold serveSegmentRead; split <;> rfl

theorem serveLoomRead_eq (station : Byte) (s : State) : (serveLoomRead station s).1 = s := by
  unfold serveLoomRead; split <;> rfl

theorem serveStationRead_eq (station : Byte) (s : State) : (serveStationRead station s).1 = s := by
  unfold serveStationRead; split <;> rfl

theorem serveLayRead_eq (station : Byte) (s : State) : (serveLayRead station s).1 = s := by
  unfold serveLayRead; split <;> rfl

theorem serveLotRead_eq (lot : BitVec 16) (s : State) : (serveLotRead lot s).1 = s := by
  unfold serveLotRead
  split
  · rfl
  · split <;> rfl

theorem serveCoilerRead_eq (part : Byte) (s : State) : (serveCoilerRead part s).1 = s := by
  unfold serveCoilerRead
  split
  · rfl
  · split
    · rfl
    · split <;> rfl

theorem kept_of_eq {s t : State} (h : t = s) : Kept s t := h ▸ .refl s

theorem serveSegmentWrite_kept (index : Byte) (rows : BitVec 16) (left right stepRows next : Byte) (s : State) :
    Kept s (serveSegmentWrite index rows left right stepRows next s).1 := by
  unfold serveSegmentWrite
  split
  · extract_lets i
    split
    · exact kept_ite (fun _ => .refl s) fun _ => .same rfl rfl rfl rfl rfl rfl
    · exact .refl s
  · exact .refl s

theorem serveRowReport_kept (station : Byte) (row : BitVec 24) (knots : BitVec 256) (s : State) :
    Kept s (serveRowReport station row knots s).1 := by
  unfold serveRowReport
  split
  · exact .refl s
  · extract_lets q
    split
    · exact .refl s
    · next c hc =>
      refine kept_ite (fun _ => kept_ite (fun _ => takeReport_kept _ c knots s hc) fun _ => .refl s) fun _ => ?_
      split
      · exact kept_ite (fun _ => .refl s) fun _ => .refl s
      · exact .refl s

theorem serveRowReply_kept (station value : Byte) (s : State) : Kept s (serveRowReply station value s).1 := by
  unfold serveRowReply
  split
  · exact .refl s
  · refine kept_ite (fun _ => .refl s) fun _ => kept_ite (fun _ => .refl s) fun h => ?_
    exact kept_ite (fun _ => acceptRow_kept _ s (not_not.mp h)) fun _ => abandonRow_kept _ s (not_not.mp h)

theorem serveKnotFaultRead_kept (station count : Byte) (s : State) : Kept s (serveKnotFaultRead station count s).1 := by
  unfold serveKnotFaultRead
  split
  · exact .refl s
  · exact kept_ite (fun _ => .refl s) fun _ => setLoom_kept ..

theorem serveCoilerReport_kept (station arbor report : Byte) (s : State) :
    Kept s (serveCoilerReport station arbor report s).1 := by
  unfold serveCoilerReport
  split
  · refine kept_ite (fun _ => .refl s) fun _ => kept_ite (fun _ => .refl s) fun _ => kept_ite (fun _ => ?_) fun _ => ?_
    · split
      · exact kept_ite (fun _ => cutReport_kept ..) fun _ => .refl s
      · exact .refl s
    · split
      · exact kept_ite (fun _ => .refl s) fun _ => packReport_kept ..
      · exact .refl s
  · exact .refl s

theorem serveTagLoad_kept (count : Byte) (tags : Vector (BitVec 24) 8) (s : State) : Kept s (serveTagLoad count tags s).1 := by
  unfold serveTagLoad
  extract_lets n new k s1
  have h1 : Kept s s1 := setCoiler_kept ..
  refine kept_ite (fun _ => .refl s) fun _ => kept_ite (fun _ => .refl s) fun _ => kept_ite (fun _ => .refl s) fun _ =>
    kept_ite (fun _ => .refl s) fun _ => h1.trans ?_
  split
  · exact takeTag_kept ..
  · exact .refl _

theorem serveCoilTake_kept (s : State) : Kept s (serveCoilTake s).1 := by
  unfold serveCoilTake
  split
  · exact .refl s
  · extract_lets k s1
    have h1 : Kept s s1 := setCoiler_kept ..
    refine h1.trans ?_
    split
    · exact (postCoil_kept ..).trans (freeArbor_kept ..)
    · exact .refl _

theorem serveNoticeRead_kept (p : Port) (count : Byte) (s : State) : Kept s (serveNoticeRead p count s).1 := by
  unfold serveNoticeRead
  exact kept_ite (fun _ => .refl s) fun _ => .same rfl rfl rfl rfl rfl rfl

/-- Every request's owner keeps what is in order. -/
theorem owner_kept (p : Port) (r : Request) (s : State) : Kept s (owner p r s).1 := by
  cases r with
  | stationRead => exact kept_of_eq (serveStationRead_eq ..)
  | faultClear => exact serveFaultClear_kept ..
  | stationBind => exact serveStationBind_kept ..
  | stationUnbind => exact serveStationUnbind_kept ..
  | portStatus => exact .refl s
  | lotCreate => exact serveLotCreate_kept ..
  | lotWrite => exact serveLotWrite_kept ..
  | lotCheck => exact serveLotCheck_kept ..
  | lotReopen => exact serveLotReopen_kept ..
  | lotHold => exact serveLotHold_kept ..
  | lotResume => exact serveLotResume_kept ..
  | lotClose => exact serveLotClose_kept ..
  | lotDelete => exact serveLotDelete_kept ..
  | lotRead => exact kept_of_eq (serveLotRead_eq ..)
  | lotAttach => exact serveLotAttach_kept ..
  | lotDetach => exact serveLotDetach_kept ..
  | layRead => exact kept_of_eq (serveLayRead_eq ..)
  | stationRun => exact serveStationRun_kept ..
  | stationStop => exact serveStationStop_kept ..
  | bobbinRegister => exact serveBobbinRegister_kept ..
  | bobbinRemove => exact serveBobbinRemove_kept ..
  | bobbinIssue => exact serveBobbinIssue_kept ..
  | bobbinDoff => exact serveBobbinDoff_kept ..
  | bobbinMount => exact serveBobbinMount_kept ..
  | bobbinDismount => exact serveBobbinDismount_kept ..
  | bobbinReturn => exact serveBobbinReturn_kept ..
  | bobbinRead => exact kept_of_eq (serveBobbinRead_eq ..)
  | feedRead => exact kept_of_eq (serveFeedRead_eq ..)
  | segmentWrite => exact serveSegmentWrite_kept ..
  | segmentRead => exact kept_of_eq (serveSegmentRead_eq ..)
  | rowReport => exact serveRowReport_kept ..
  | rowReply => exact serveRowReply_kept ..
  | knotFaultRead => exact serveKnotFaultRead_kept ..
  | loomRead => exact kept_of_eq (serveLoomRead_eq ..)
  | meterRead => exact .refl s
  | coilerReport => exact serveCoilerReport_kept ..
  | tagLoad => exact serveTagLoad_kept ..
  | coilTake => exact serveCoilTake_kept s
  | coilerRead => exact kept_of_eq (serveCoilerRead_eq ..)
  | noticeRead => exact serveNoticeRead_kept ..
  | routeWrite => exact serveRouteWrite_kept ..
  | routeRead => exact .refl s
  | attnEnable => exact serveAttnEnable_kept ..
  | settingsWrite => exact serveSettingsWrite_kept ..
  | settingsRead => exact .refl s
  | calWrite => exact serveCalWrite_kept ..
  | calRead => exact .refl s
  | storeCommit => exact serveStoreCommit_kept ..

/-! ## Ports -/

theorem checked_kept (p : Port) (r : Request) (s : State) : Kept s (checked p r s).1 := by
  unfold checked
  refine kept_ite (fun _ => .refl s) fun _ => ?_
  split
  · exact kept_ite (fun _ => owner_kept ..) fun _ => .refl s
  · exact owner_kept ..

theorem answerWith_kept {s : State} (p : Port) (kind : Byte) (r : Served) (h : Kept s r.1) : Kept s (answerWith p kind r) :=
  h.trans (setPort_kept ..)

theorem takeRequest_kept (p : Port) (r : Request) (s : State) : Kept s (takeRequest p r s) :=
  answerWith_kept p _ _ (checked_kept ..)

theorem takeFrame_kept (p : Port) (f : Frame) (s : State) : Kept s (takeFrame p f s) := by
  unfold takeFrame
  split
  · exact answerWith_kept p _ _ (.refl s)
  · exact takeRequest_kept ..

theorem arrive_kept (p : Port) (f : Frame) (take : State → State) (s : State) (h : ∀ s, Kept s (take s)) :
    Kept s (arrive p f take s) := by
  unfold arrive
  extract_lets s1
  have h1 : Kept s s1 := validArrival_kept ..
  refine h1.trans ?_
  split
  · exact h s1
  · exact setPort_kept ..

theorem whenRunning_kept (f : State → State) (s : State) (h : s.power = .running → Kept s (f s)) : Kept s (whenRunning f s) :=
  .ite h

theorem frameError_kept (p : Port) (s : State) : Kept s (frameError p s) := setPort_kept ..

theorem requestArrives_kept (p : Port) (r : Request) (s : State) : Kept s (requestArrives p r s) := by
  refine whenRunning_kept _ s fun _ => ?_
  split
  · exact frameError_kept ..
  · exact arrive_kept _ _ _ _ fun s => takeRequest_kept p r s

theorem frameArrives_kept (p : Port) (f : Frame) (s : State) : Kept s (frameArrives p f s) := by
  refine whenRunning_kept _ s fun _ => ?_
  split
  · exact frameError_kept ..
  · exact arrive_kept _ _ _ _ fun s => takeFrame_kept p f s

theorem discardFrame_kept (p : Port) (s : State) : Kept s (discardFrame p s) :=
  (setPort_kept p _ s).trans (frameError_kept ..)

theorem receiveByte_kept (p : Port) (b : Byte) (s : State) : Kept s (receiveByte p b s) := by
  unfold receiveByte
  split
  · exact .ite fun _ => setPort_kept ..
  · exact setPort_kept ..
  · split
    · exact discardFrame_kept ..
    · split <;> exact setPort_kept ..
  · split <;> exact setPort_kept ..
  · split
    · exact (setPort_kept p _ s).trans (frameArrives_kept ..)
    · exact discardFrame_kept ..

theorem receiveBroken_kept (p : Port) (s : State) : Kept s (receiveBroken p s) := by
  unfold receiveBroken
  split
  · exact .refl s
  · exact discardFrame_kept ..

theorem takeHeld_kept (p : Port) (s : State) : Kept s (takeHeld p s) := by
  unfold takeHeld
  split
  · exact (setPort_kept p _ s).trans (takeFrame_kept ..)
  · exact .refl s

/-! ## Pulses -/

theorem useCap_kept (t : Twi) (d : Nat) (s : State) : Kept s (useCap t d s) := by
  unfold useCap
  split
  · exact windBobbin_kept ..
  · extract_lets s1
    have h1 : Kept s s1 := .same rfl rfl rfl rfl rfl rfl
    refine h1.trans ?_
    split
    · exact (takeUpDraw_kept ..).trans (meterCap_kept ..)
    · exact (meterCap_kept ..).trans (takeUpDraw_kept ..)

theorem accumulate_kept (t : Twi) (d : Nat) (s : State) : Kept s (accumulate t d s) := .ite fun _ => setTwist_kept ..

theorem capEdge_kept (t : Twi) (s : State) : Kept s (capEdge t s) :=
  (accumulate_kept ..).trans ((layCap_kept ..).trans (useCap_kept ..))

theorem flyEdge_kept (t : Twi) (s : State) : Kept s (flyEdge t s) := (flyStill_kept ..).trans (layFly_kept ..)

theorem wheelEdge_kept (s : State) : Kept s (wheelEdge s) := by
  unfold wheelEdge
  extract_lets d k s1
  have h1 : Kept s s1 := .ite fun _ => setCoiler_kept ..
  exact h1.trans (meterWheel_kept ..)

theorem countedEdge_kept (c : Chan) (s : State) : Kept s (countedEdge c s) := by
  unfold countedEdge
  split
  · extract_lets t
    split
    · exact flyEdge_kept ..
    · exact capEdge_kept ..
  · exact wheelEdge_kept ..

theorem acceptLevel_kept (c : Chan) (level : Bool) (s : State) : Kept s (acceptLevel c level s) := by
  unfold acceptLevel
  extract_lets ch s1
  have h1 : Kept s s1 := setChannel_kept ..
  refine h1.trans ?_
  split
  · exact countedEdge_kept ..
  · exact .refl _

theorem rawChange_kept (c : Chan) (level : Bool) (s : State) : Kept s (rawChange c level s) := by
  unfold rawChange
  extract_lets ch s1
  have h1 : Kept s s1 := setChannel_kept ..
  refine h1.trans ?_
  split
  · exact acceptLevel_kept ..
  · split <;> exact setChannel_kept ..

/-! ## Supply loss and the line reset -/

theorem haltAtOnce_station (t : Twi) (s : State) (h : (s.station (twiSta t)).state.twistRuns = true) :
    (haltAtOnce t s).station (twiSta t) = { s.station (twiSta t) with state := .halted } := by
  unfold haltAtOnce
  extract_lets st w
  rw [if_pos, moveTo_station]
  · rfl
  · revert h
    dsimp only [st]
    cases (s.station (twiSta t)).state <;> simp [RunState.twistRuns]

theorem haltAtOnce_station_ne (t : Twi) (s : State) (j : Sta) (h : j ≠ twiSta t) :
    (haltAtOnce t s).station j = s.station j := by
  unfold haltAtOnce
  extract_lets st w
  split
  · exact moveTo_station_ne _ _ _ _ h
  · rfl

/-- A running twisting station stopped at once under a cause: HALTED under it, and no other station touched (R8, R9). -/
theorem haltUnder_station (t : Twi) (c : Cause) (s : State) (h : (s.station (twiSta t)).state.twistRuns = true) :
    let u := haltAtOnce t (if s.has (twiSta t) c then s else raise .fault (.station (twiSta t)) c.word (addCause (twiSta t) c s))
    (u.station (twiSta t)).state = .halted ∧ u.has (twiSta t) c = true ∧
      (∀ d, d ≠ c → u.has (twiSta t) d = s.has (twiSta t) d) ∧ ∀ j, j ≠ twiSta t → u.station j = s.station j := by
  intro u
  by_cases hc : s.has (twiSta t) c = true
  · have e : u = haltAtOnce t s := by dsimp only [u]; rw [if_pos hc]
    have es := haltAtOnce_station t s h
    rw [e]
    refine ⟨by rw [es], ?_, fun d _ => ?_, fun j hj => haltAtOnce_station_ne _ _ _ hj⟩ <;> unfold State.has <;> rw [es]
    exact hc
  · have e : u = haltAtOnce t (raise .fault (.station (twiSta t)) c.word (addCause (twiSta t) c s)) := by
      dsimp only [u]; rw [if_neg hc]
    have e1 : (raise .fault (.station (twiSta t)) c.word (addCause (twiSta t) c s)).station (twiSta t) =
        (addCause (twiSta t) c s).station (twiSta t) := (raise_frame ..).station _
    have e2 : (addCause (twiSta t) c s).station (twiSta t) = _ := State.setStation_station_self ..
    have es := haltAtOnce_station t (raise .fault (.station (twiSta t)) c.word (addCause (twiSta t) c s))
      (by rw [e1, e2]; exact h)
    rw [e1, e2] at es
    rw [e]
    refine ⟨by rw [es], ?_, fun d hd => ?_, fun j hj => ?_⟩
    · unfold State.has; rw [es, hasCause_add]; simp
    · unfold State.has; rw [es, hasCause_add]; simp [Ne.symm hd]
    · rw [haltAtOnce_station_ne _ _ _ hj, (raise_frame ..).station]
      exact State.setStation_station_ne _ _ _ _ hj

theorem haltUnder_move (t : Twi) (i : Sta) (c : Cause) (s : State) :
    MoveFrame s (haltAtOnce t (if s.has i c then s else raise .fault (.station i) c.word (addCause i c s))) := by
  refine MoveFrame.trans ?_ (haltAtOnce_move ..)
  split
  · exact .refl s
  · exact (addCause_move ..).trans (.ofNotice (raise_frame ..))

theorem stopStation_kept (c : Cause) (s : State) (i : Sta) (hc : c ≠ .coilerHalt) : Kept s (stopStation c s i) := by
  unfold stopStation
  refine .ite fun _ => ?_
  split
  · next t ht =>
    have ht := twiSta_of_twistOf ht
    subst ht
    split
    · next hr =>
      obtain ⟨h1, h2, h3, h4⟩ := haltUnder_station t c s hr
      refine (Aside.of_move (haltUnder_move t (twiSta t) c s)).kept fun o hf => ?_
      refine ⟨hf.1.write (twiSta t) h4 (.halted h1) (fun _ _ => ne_zero_of_hasCause h2) fun _ _ => id, ?_⟩
      refine coilerHaltExact_of_same hf.2 ?_ (by rw [h4 _ (Ne.symm (twiSta_ne_staK0 t))])
        ((haltUnder_move t (twiSta t) c s).lot _)
      by_cases e : staC0 = twiSta t
      · rw [e]; exact h3 _ (Ne.symm hc)
      · exact congrArg (fun r : Station => hasCause r.causes .coilerHalt) (h4 _ e)
    · exact raiseCause_kept _ _ hc
  · exact raiseCause_kept _ _ hc

theorem stopAll_kept (c : Cause) (s : State) (hc : c ≠ .coilerHalt) : Kept s (stopAll c s) :=
  (Kept.foldl _ (fun s i => stopStation_kept c s i hc) allStations s).trans
    (Kept.foldl _ (fun s i => endFill_kept i s) allStranders _)

theorem vector_ofFn_get {α : Type} {n : Nat} (f : Fin n → α) (i : Fin n) : (Vector.ofFn f)[i] = f i :=
  Vector.getElem_ofFn i.isLt

theorem takeLineReset_kept (s : State) : Kept s (takeLineReset s) := by
  unfold takeLineReset
  extract_lets s1
  have h1 : Kept s s1 := stopAll_kept _ _ (by decide)
  clear_value s1
  refine h1.trans ⟨⟨id, id, rfl⟩, fun o hf => hf.of_stations fun i => ?_⟩
  unfold State.station
  dsimp only
  rw [vector_ofFn_get]
  exact ⟨rfl, rfl, rfl⟩

/-! ## Every command -/

/-- What O57 and O58 ask of a step. -/
structure Sound (s t : State) : Prop where
  lots : LotsOk s → LotsOk t
  settings : SettingsOk s → SettingsOk t
  stations : StationsOk s → CoilerHaltOk s → StationsOk t ∧ CoilerHaltOk t

theorem fine_iff (s : State) : Fine ∅ s ↔ (∀ i, StationOk i (s.station i)) ∧ CoilerHaltExact s.stations := by
  unfold Fine StFine
  refine and_congr_left fun _ => ⟨fun h i => (stationOk_iff i _).mpr ⟨h.1 i, h.2 i (Set.notMem_empty i)⟩, fun h => ?_⟩
  exact ⟨fun i => ((stationOk_iff i _).mp (h i)).1, fun i _ => ((stationOk_iff i _).mp (h i)).2⟩

theorem Kept.sound {s t : State} (h : Kept s t) : Sound s t := by
  refine ⟨fun ⟨h1, h2⟩ => ⟨h.lots h1, h.image ▸ h2⟩, h.settings, fun hs hc => ?_⟩
  have hf := (fine_iff t).mp (h.stations ∅ ((fine_iff s).mpr ⟨fun i => (hs i).1, hc.1⟩))
  refine ⟨fun i => ⟨hf.1 i, ?_⟩, hf.2, ?_⟩
  · rw [h.image]; exact (hs i).2
  · rw [h.image]; exact hc.2

theorem settings_default_inRange : SettingsInRange Settings.default := by
  simp [SettingsInRange, Settings.default]

/-- A start from a part in order: what is restored, and what is at its cold value, is in order. -/
theorem warmStart_sound (s : State) : Sound s (warmStart s) := by
  refine ⟨fun h => ⟨h.2, h.2⟩, fun ⟨_, h2, h3, _⟩ => ⟨h3, h2, h3, fun x hx => ?_⟩, fun hs hc => ?_⟩
  · unfold warmStart at hx
    dsimp only at hx
    split at hx
    · cases hx
    · cases hx; exact h3
  · exact ⟨fun i => ⟨(hs i).2, (hs i).2⟩, hc.2, hc.2⟩

theorem coldStart_sound (s : State) : Sound s (coldStart s) := by
  have hst : ∀ i : Sta, (coldStart s).station i = Station.cold := fun i => by
    unfold State.station coldStart State.reset
    exact Vector.getElem_replicate i.isLt
  have hlots : ∀ k : Slot, (coldStart s).lots[k] = none := fun k => by
    unfold coldStart State.reset
    exact Vector.getElem_replicate k.isLt
  refine ⟨fun h => ⟨⟨fun j k a b ha => ?_, fun k a ha => ?_⟩, h.2⟩, fun ⟨_, h2, h3, _⟩ => ⟨?_, h2, h3, nofun⟩, fun hs hc => ?_⟩
  · rw [hlots] at ha; cases ha
  · rw [hlots] at ha; cases ha
  · unfold coldStart
    dsimp only
    split
    · exact h2
    · exact settings_default_inRange
  · refine ⟨fun i => ⟨?_, (hs i).2⟩, (coilerHaltExact_iff _).mpr ?_, hc.2⟩
    · rw [hst]
      exact ⟨by cases kindOf i <;> rfl, fun _ => rfl, fun h => absurd rfl h⟩
    · unfold State.has
      rw [hst, hst]
      decide

theorem beginSave_sound (s : State) : Sound s (beginSave s) := by
  have h := stopAll_kept .power s (by decide)
  unfold beginSave
  generalize stopAll .power s = u at h
  have hst : ∀ i, (Vector.ofFn fun i => (u.station i).saved)[i] = (u.station i).saved := fun i => vector_ofFn_get _ i
  refine ⟨fun hl => ⟨h.lots hl.1, h.lots hl.1⟩, fun hs => ?_, fun hs hc => ?_⟩
  · obtain ⟨h1, h2, h3, h4⟩ := h.settings hs
    exact ⟨h1, h2, h1, nofun⟩
  · obtain ⟨hf, hx⟩ := (fine_iff _).mp (h.stations ∅ ((fine_iff s).mpr ⟨fun i => (hs i).1, hc.1⟩))
    refine ⟨fun i => ⟨hf i, ?_⟩, hx, ?_⟩
    · exact (hst i).symm ▸ hf i
    · show CoilerHaltExact (.ofFn fun i => (u.station i).saved)
      unfold CoilerHaltExact
      rw [hst, hst]; exact hx

/-- The rewrite of the image's valid flag, of the supply report and of the power keeps everything. -/
theorem Sound.congr {s t u : State} (h : Sound s t) (hl : u.lots = s.lots) (hc : u.settings = s.settings)
    (hs : u.store = s.store) (hm : u.commit = s.commit) (hi : u.image = s.image) (hst : u.stations = s.stations) :
    Sound u t := by
  refine ⟨fun k => h.lots ?_, fun k => h.settings ?_, fun k k' => h.stations ?_ ?_⟩
  · unfold LotsOk at k ⊢; rw [← hl, ← hi]; exact k
  · unfold SettingsOk at k ⊢; rw [← hc, ← hs, ← hi, ← hm]; exact k
  · unfold StationsOk State.station at k ⊢; rw [← hst, ← hi]; exact k
  · unfold CoilerHaltOk at k' ⊢; rw [← hst, ← hi]; exact k'

theorem execSupplyLow_sound {s t : State} (h : execSupplyLow s = .next t) : Sound s t := by
  unfold execSupplyLow at h
  cases h
  split
  · exact beginSave_sound s
  · exact Kept.sound (.same rfl rfl rfl rfl rfl rfl)
  · exact Kept.sound (.same rfl rfl rfl rfl rfl rfl)
  · exact Kept.sound (.refl s)

theorem execSaveComplete_sound {s t : State} (h : execSaveComplete s = .next t) : Sound s t := by
  unfold execSaveComplete at h
  cases h
  split
  · split
    · exact (warmStart_sound { s with imageValid := true }).congr rfl rfl rfl rfl rfl rfl
    · exact Kept.sound (.same rfl rfl rfl rfl rfl rfl)
  · exact Kept.sound (.refl s)

theorem execSupplyRecovery_sound {s t : State} (h : execSupplyRecovery s = .next t) : Sound s t := by
  unfold execSupplyRecovery at h
  cases h
  split
  · exact warmStart_sound s
  · exact Kept.sound (.same rfl rfl rfl rfl rfl rfl)
  · exact Kept.sound (.same rfl rfl rfl rfl rfl rfl)
  · exact Kept.sound (.refl s)

theorem execPowerUp_sound {s t : State} (h : execPowerUp s = .next t) : Sound s t := by
  unfold execPowerUp at h
  cases h
  split
  · split
    · exact warmStart_sound s
    · exact coldStart_sound s
  · exact Kept.sound (.refl s)

/-- What an expiry or another event does while the part runs is sound where it is kept. -/
theorem whenRunning_sound {f : State → State} {s t : State} (h : Host.Outcome.next (φ := Fault) (ρ := Refusal) (whenRunning f s) = .next t)
    (hf : Kept s (f s)) : Sound s t := by
  cases h
  exact (whenRunning_kept f s fun _ => hf).sound

theorem request_sound {p : Port} {r : Request} {s t : State}
    (h : Host.Outcome.next (φ := Fault) (ρ := Refusal) (requestArrives p r s) = .next t) : Sound s t := by
  cases h
  exact (requestArrives_kept p r s).sound

theorem execRawInputChange_sound {c : Chan} {level : Bool} {s t : State} (h : execRawInputChange c level s = .next t) :
    Sound s t := by
  unfold execRawInputChange at h
  cases h
  refine Kept.sound ?_
  split
  · exact .refl s
  · split
    · exact rawChange_kept ..
    · exact setChannel_kept ..

theorem execStoreCommitCompletion_sound {s t : State} (h : execStoreCommitCompletion s = .next t) : Sound s t := by
  refine whenRunning_sound h ?_
  split
  · next c hc =>
    extract_lets s1
    have h1 : Kept s s1 := ⟨⟨id, fun ⟨g1, _, g3, g4⟩ => ⟨g1, g4 c hc, g3, nofun⟩, rfl⟩, fun _ => id⟩
    refine h1.trans ?_
    split
    · exact raise_kept ..
    · exact raise_kept ..
  · exact .refl s

theorem execByteGapExpiry_sound {p : Port} {s t : State} (h : execByteGapExpiry p s = .next t) : Sound s t := by
  refine whenRunning_sound h ?_
  split
  · exact .refl s
  · exact (advanceUs_kept ..).trans (discardFrame_kept ..)

theorem execAnswerComplete_sound {p : Port} {s t : State} (h : execAnswerComplete p s = .next t) : Sound s t := by
  refine whenRunning_sound h ?_
  split
  · exact (advanceUs_kept ..).trans ((setPort_kept p _ _).trans (takeHeld_kept ..))
  · exact .refl s

theorem execSilenceExpiry_sound {p : Port} {s t : State} (h : execSilenceExpiry p s = .next t) : Sound s t := by
  refine whenRunning_sound h ?_
  split
  · exact (advanceMs_kept ..).trans (fallSilent_kept ..)
  · exact .refl s

theorem execPendingChangeAccept_sound {c : Chan} {s t : State} (h : execPendingChangeAccept c s = .next t) : Sound s t := by
  refine whenRunning_sound h ?_
  split
  · exact (advanceUs_kept ..).trans (acceptLevel_kept ..)
  · exact .refl s

theorem execStillnessExpiry_sound {t : Twi} {s u : State} (h : execStillnessExpiry t s = .next u) : Sound s u := by
  refine whenRunning_sound h ?_
  split
  · exact (advanceMs_kept ..).trans ((setTwist_kept t _ _).trans (becomeStill_kept ..))
  · exact .refl s

theorem execRetryWaitExpiry_sound {i : Sta} {s t : State} (h : execRetryWaitExpiry i s = .next t) : Sound s t := by
  refine whenRunning_sound h ?_
  split
  · exact (advanceMs_kept ..).trans (setStation_kept i _ _ rfl rfl rfl)
  · exact .refl s

theorem execRunUpLong_sound {t : Twi} {s u : State} (h : execRunUpLong t s = .next u) : Sound s u := by
  refine whenRunning_sound h ?_
  split
  · exact (advanceMs_kept ..).trans (longRunUp_kept ..)
  · exact .refl s

theorem execRunDownLong_sound {t : Twi} {s u : State} (h : execRunDownLong t s = .next u) : Sound s u := by
  refine whenRunning_sound h ?_
  split
  · exact (advanceMs_kept ..).trans (longRunDown_kept ..)
  · exact .refl s

theorem execMarkPulseEnd_sound {s t : State} (h : execMarkPulseEnd s = .next t) : Sound s t := by
  refine whenRunning_sound h ?_
  split
  · exact (advanceMs_kept ..).trans (setCoiler_kept ..)
  · exact .refl s

theorem execLineReset_sound {s t : State} (h : execLineReset s = .next t) : Sound s t := by
  refine whenRunning_sound h ?_
  split
  · exact (advanceUs_kept ..).trans (takeLineReset_kept _)
  · exact .refl s

theorem execResetAssert_sound {s t : State} (h : execResetAssert s = .next t) : Sound s t := by
  unfold execResetAssert at h
  cases h
  refine Kept.sound ?_
  split
  · exact .same rfl rfl rfl rfl rfl rfl
  · exact .refl s

/-- Every command keeps the lot table, the settings and the stations in order. -/
theorem exec_sound {c : Instr} {s t : State} (h : exec c s = .next t) : Sound s t := by
  cases c with
  | unknownRequest p kind payload => cases h; exact (frameArrives_kept ..).sound
  | byteReceived p b stop =>
    refine whenRunning_sound h ?_
    split
    · exact receiveByte_kept ..
    · exact receiveBroken_kept ..
  | byteGapExpiry => exact execByteGapExpiry_sound h
  | answerComplete => exact execAnswerComplete_sound h
  | silenceExpiry => exact execSilenceExpiry_sound h
  | rawInputChange => exact execRawInputChange_sound h
  | pendingChangeAccept => exact execPendingChangeAccept_sound h
  | windowTimeLimitExpiry =>
    exact whenRunning_sound h (.ite fun _ => (advanceMs_kept ..).trans (expireWindow_kept ..))
  | stillnessExpiry => exact execStillnessExpiry_sound h
  | retryWaitExpiry => exact execRetryWaitExpiry_sound h
  | runUpLong => exact execRunUpLong_sound h
  | runDownLong => exact execRunDownLong_sound h
  | markPulseEnd => exact execMarkPulseEnd_sound h
  | storeCommitCompletion => exact execStoreCommitCompletion_sound h
  | supplyLow => exact execSupplyLow_sound h
  | saveComplete => exact execSaveComplete_sound h
  | supplyRecovery => exact execSupplyRecovery_sound h
  | powerUp => exact execPowerUp_sound h
  | powerFailure => cases h; exact Kept.sound (.same rfl rfl rfl rfl rfl rfl)
  | resetAssert => exact execResetAssert_sound h
  | lineReset => exact execLineReset_sound h
  | resetRelease => cases h; exact Kept.sound (.same rfl rfl rfl rfl rfl rfl)
  | _ => exact request_sound h

theorem step_sound {s t : State} (h : step s = .next t) : Sound s t := by
  unfold step at h
  split at h
  · cases h
    refine Kept.sound ?_
    unfold State.tick
    split
    · exact .refl s
    · exact .same rfl rfl rfl rfl rfl rfl
  · next c rest _ => exact (exec_sound h).congr rfl rfl rfl rfl rfl rfl

end Sys2Proof.Laws

namespace Sys2Proof.Proofs

open Sys2Proof.Laws

/-- Settles O57: every command keeps the lot table and the settings in order. -/
theorem stepKeepsLotsAndSettingsOk : Obligations.StepKeepsLotsAndSettingsOk :=
  fun _ _ h => ⟨(step_sound h).lots, (step_sound h).settings⟩

/-- Settles O58: every command keeps the station records in order, and C0's COILER_HALT with K0's halt. -/
theorem stepKeepsStationsOk : Obligations.StepKeepsStationsOk := fun _ _ hs hc h => (step_sound h).stations hs hc

end Sys2Proof.Proofs
end

section
/-! Notices that do not depend on other records, stations written and moved, and how a request is answered. -/

namespace Sys2Proof.Laws

open Sys2Proof.Machine Sys2Proof.Safety

/-! ## What a notice reads -/

/-- `t` offers notices as `s` does: the same queues and ports, routing and bindings, and the same time. -/
structure Offers (s t : State) : Prop where
  ports : t.ports = s.ports
  queues : t.queues = s.queues
  now : t.now = s.now
  routing : t.settings.routing = s.settings.routing
  bound : ∀ i, (t.station i).bound = (s.station i).bound

theorem offer_of_offers {s t : State} (p : Port) (cls : NoticeClass) (sub : Subject) (d : BitVec 16)
    (hp : t.ports = s.ports) (hq : t.queues = s.queues) (hn : t.now = s.now) :
    offer p cls sub d t = { t with ports := (offer p cls sub d s).ports, queues := (offer p cls sub d s).queues } := by
  have e : t.worksClock = s.worksClock := by simp [hn]
  have e1 : t.queue p = s.queue p := by unfold State.queue; rw [hq]
  have e2 : t.port p = s.port p := by unfold State.port; rw [hp]
  unfold offer
  rw [e, e1]
  split
  · unfold State.setQueue; rw [hq, ← hp]
  · unfold State.setPort; rw [hp, ← hq, e2]

theorem offerAll_of_offers {s t : State} (ps : BitSet 4) (cls : NoticeClass) (sub : Subject) (d : BitVec 16)
    (hp : t.ports = s.ports) (hq : t.queues = s.queues) (hn : t.now = s.now) :
    offerAll ps cls sub d t =
      { t with ports := (offerAll ps cls sub d s).ports, queues := (offerAll ps cls sub d s).queues } := by
  unfold offerAll
  generalize allPorts = l
  induction l generalizing s t with
  | nil => rw [List.foldl_nil, List.foldl_nil, ← hp, ← hq]
  | cons p l ih =>
    simp only [List.foldl_cons]
    split
    · rw [offer_of_offers p cls sub d hp hq hn,
        ih (s := offer p cls sub d s)
          (t := { t with ports := (offer p cls sub d s).ports, queues := (offer p cls sub d s).queues }) rfl rfl
          (hn.trans (offer_frame p cls sub d s).now.symm)]
    · exact ih hp hq hn

theorem destinations_of_offers {s t : State} (h : Offers s t) (cls : NoticeClass) (sub : Subject) :
    t.destinations cls sub = s.destinations cls sub := by
  unfold State.destinations
  cases sub with
  | station i => dsimp only; rw [h.bound i, h.routing]
  | lot | bobbin | port => dsimp only; rw [h.routing]

/-- A notice puts into a state what it puts into any state that offers notices alike. -/
theorem raise_of_offers {s t : State} (h : Offers s t) (cls : NoticeClass) (sub : Subject) (d : BitVec 16) :
    raise cls sub d t = { t with ports := (raise cls sub d s).ports, queues := (raise cls sub d s).queues } := by
  unfold raise
  rw [destinations_of_offers h]
  exact offerAll_of_offers _ _ _ _ h.ports h.queues h.now

theorem Offers.refl (s : State) : Offers s s := ⟨rfl, rfl, rfl, rfl, fun _ => rfl⟩

/-- Notices keep two states alike. -/
theorem Offers.raise {s t : State} (h : Offers s t) (cls : NoticeClass) (sub : Subject) (d : BitVec 16) :
    Offers (raise cls sub d s) (raise cls sub d t) := by
  rw [raise_of_offers h]
  exact ⟨rfl, rfl, h.now.trans (raise_frame ..).now.symm, by rw [(raise_frame cls sub d s).settings]; exact h.routing,
    fun i => by rw [(raise_frame cls sub d s).station]; exact h.bound i⟩

theorem Offers.setStation {s : State} {i : Sta} {r : Station} (hb : r.bound = (s.station i).bound) :
    Offers s (s.setStation i r) := by
  refine ⟨rfl, rfl, rfl, rfl, fun j => ?_⟩
  rw [State.setStation_station]
  split
  · next e => rw [e, hb]
  · rfl

/-- An update that a notice does not read, made before the notice or after it. -/
theorem raise_setStation {s : State} {i : Sta} {r : Station} (hb : r.bound = (s.station i).bound) (cls : NoticeClass)
    (sub : Subject) (d : BitVec 16) : raise cls sub d (s.setStation i r) = (raise cls sub d s).setStation i r := by
  rw [raise_of_offers (Offers.setStation hb), (raise_frame cls sub d s).1]; rfl

theorem raise_setTwist (s : State) (t : Twi) (w : Twist) (cls : NoticeClass) (sub : Subject) (d : BitVec 16) :
    raise cls sub d (s.setTwist t w) = (raise cls sub d s).setTwist t w := by
  rw [raise_of_offers (s := s) (t := s.setTwist t w) ⟨rfl, rfl, rfl, rfl, fun _ => rfl⟩, (raise_frame cls sub d s).1]; rfl

theorem raise_setLot (s : State) (k : Slot) (o : Option Lot) (cls : NoticeClass) (sub : Subject) (d : BitVec 16) :
    raise cls sub d (s.setLot k o) = (raise cls sub d s).setLot k o := by
  rw [raise_of_offers (s := s) (t := s.setLot k o) ⟨rfl, rfl, rfl, rfl, fun _ => rfl⟩, (raise_frame cls sub d s).1]; rfl

theorem raise_setLoom (s : State) (l : Loom) (q : LoomPos) (cls : NoticeClass) (sub : Subject) (d : BitVec 16) :
    raise cls sub d (s.setLoom l q) = (raise cls sub d s).setLoom l q := by
  rw [raise_of_offers (s := s) (t := s.setLoom l q) ⟨rfl, rfl, rfl, rfl, fun _ => rfl⟩, (raise_frame cls sub d s).1]; rfl

theorem raise_setBobbins (s : State) (bs : List Bobbin) (cls : NoticeClass) (sub : Subject) (d : BitVec 16) :
    raise cls sub d (s.setBobbins bs) = (raise cls sub d s).setBobbins bs := by
  rw [raise_of_offers (s := s) (t := s.setBobbins bs) ⟨rfl, rfl, rfl, rfl, fun _ => rfl⟩, (raise_frame cls sub d s).1]; rfl

theorem raise_setCoiler (s : State) (k : Coiler) (cls : NoticeClass) (sub : Subject) (d : BitVec 16) :
    raise cls sub d (s.setCoiler k) = (raise cls sub d s).setCoiler k := by
  rw [raise_of_offers (s := s) (t := s.setCoiler k) ⟨rfl, rfl, rfl, rfl, fun _ => rfl⟩, (raise_frame cls sub d s).1]; rfl

theorem raise_setMeter (s : State) (m : Meter) (cls : NoticeClass) (sub : Subject) (d : BitVec 16) :
    raise cls sub d (s.setMeter m) = (raise cls sub d s).setMeter m := by
  rw [raise_of_offers (s := s) (t := s.setMeter m) ⟨rfl, rfl, rfl, rfl, fun _ => rfl⟩, (raise_frame cls sub d s).1]; rfl

theorem warn_eq (w : Warning) (cls : NoticeClass) (sub : Subject) (d : BitVec 16) (s : State) :
    warn w cls sub d s = if s.settings.disable.getLsbD w.idx then s else raise cls sub d s := rfl

/-! ## Records written twice -/

theorem setStation_setStation (s : State) (i : Sta) (r r' : Station) : (s.setStation i r).setStation i r' = s.setStation i r' := by
  simp [State.setStation]

theorem setTwist_setTwist (s : State) (t : Twi) (w w' : Twist) : (s.setTwist t w).setTwist t w' = s.setTwist t w' := by
  simp [State.setTwist]

theorem setLot_setLot (s : State) (k : Slot) (o o' : Option Lot) : (s.setLot k o).setLot k o' = s.setLot k o' := by
  simp [State.setLot]

theorem setChannel_setChannel (s : State) (c : Chan) (r r' : Channel) : (s.setChannel c r).setChannel c r' = s.setChannel c r' := by
  simp [State.setChannel]

theorem setLoom_setLoom (s : State) (l : Loom) (q q' : LoomPos) : (s.setLoom l q).setLoom l q' = s.setLoom l q' := by
  simp [State.setLoom]

/-! ## Moves, as writes of the station's record -/

/-- A move is a write of the station's record with its new state (R1). -/
theorem moveTo_eq_writeStation (i : Sta) (st : RunState) (s : State) :
    moveTo i st s = writeStation i { s.station i with state := st } s := by
  unfold moveTo changeState writeStation
  by_cases h : (s.station i).state = st
  · subst h
    rw [if_pos rfl, if_pos rfl]
    exact (State.setStation_station_id ..).symm
  · rw [if_neg h, if_neg (Ne.symm h)]

/-- A record written, and then its state moved. -/
theorem moveTo_setStation {s : State} {i : Sta} {r : Station} (st : RunState) (hs : r.state = (s.station i).state) :
    moveTo i st (s.setStation i r) = writeStation i { r with state := st } s := by
  unfold moveTo changeState writeStation
  rw [State.setStation_station_self, setStation_setStation, hs]
  by_cases h : (s.station i).state = st
  · rw [if_pos h, if_pos h.symm, ← h, ← hs]
  · rw [if_neg h, if_neg (Ne.symm h)]

/-- The move of R7 after removals that leave the set `x`. -/
theorem settleOne_setStation (i : Sta) (x : BitSet 12) (s : State) :
    settleOne i (s.setStation i { s.station i with causes := x }) = writeStation i (emptied i x (s.station i)) s := by
  unfold settleOne emptied
  rw [State.setStation_station_self]
  split
  · next h =>
    rw [moveTo_setStation (r := { s.station i with causes := x }) (s := s) _ rfl]
    unfold restState
    rw [State.setStation_station_self]
    cases (s.station i).lot <;> rfl
  · unfold writeStation
    rw [if_pos rfl]

/-- A removal, of a cause present or not, where no retry wait ends with it (R3, R12). -/
theorem dropCause_eq {i : Sta} {c : Cause} {s : State} (hc : c = .laySevere → (s.station i).retryUntilMs = none) :
    dropCause i c s = s.setStation i { s.station i with causes := (s.station i).causes.del c.idx } := by
  unfold dropCause
  split
  · have e : (if c = .laySevere then none else (s.station i).retryUntilMs) = (s.station i).retryUntilMs := by
      split
      · next h => exact (hc h).symm
      · rfl
    dsimp only
    rw [e]
  · next h =>
    have e : (s.station i).causes.del c.idx = (s.station i).causes := by
      refine BitVec.eq_of_getLsbD_eq fun j _ => ?_
      have := has_del (s.station i).causes c.idx j
      unfold BitSet.has at this
      rw [this]
      by_cases ej : c.idx = j
      · subst ej
        simp only [State.has, hasCause, BitSet.has, Bool.not_eq_true] at h
        simp [h]
      · simp [ej]
    rw [e]
    exact (State.setStation_station_id ..).symm

/-- A set with a list of causes taken out. -/
def without (cs : List Cause) (x : BitSet 12) : BitSet 12 := cs.foldl (fun x c => BitSet.del x c.idx) x

theorem dropAll_eq {i : Sta} (cs : List Cause) : ∀ s : State, (.laySevere ∈ cs → (s.station i).retryUntilMs = none) →
    cs.foldl (fun s c => dropCause i c s) s = s.setStation i { s.station i with causes := without cs (s.station i).causes } := by
  induction cs with
  | nil => exact fun s _ => (State.setStation_station_id ..).symm
  | cons c cs ih =>
    intro s hc
    rw [List.foldl_cons, dropCause_eq fun e => hc (e ▸ List.mem_cons_self), ih, State.setStation_station_self,
      setStation_setStation]
    · rfl
    · intro h
      rw [State.setStation_station_self]
      exact hc (List.mem_cons_of_mem _ h)

theorem hasCause_without (cs : List Cause) : ∀ (x : BitSet 12) (c : Cause),
    hasCause (without cs x) c = (hasCause x c && !decide (c ∈ cs)) := by
  induction cs with
  | nil => exact fun x c => by simp [without]
  | cons d cs ih =>
    intro x c
    rw [without, List.foldl_cons]
    refine (ih (x.del d.idx) c).trans ?_
    rw [hasCause_del]
    by_cases e : d = c
    · subst e; simp
    · simp [e, Ne.symm e]

/-- Taking out causes changes a set exactly where one of them is in it. -/
theorem without_eq_self_iff (cs : List Cause) (x : BitSet 12) : without cs x = x ↔ cs.any (hasCause x) = false := by
  rw [List.any_eq_false]
  constructor
  · intro e c hc h
    have := hasCause_without cs x c
    rw [e, h] at this
    simp [hc] at this
  · induction cs generalizing x with
    | nil => exact fun _ => rfl
    | cons d cs ih =>
      intro h
      have hd : x.del d.idx = x := by
        refine BitVec.eq_of_getLsbD_eq fun j _ => ?_
        refine (has_del x d.idx j).trans ?_
        by_cases e : d.idx = j
        · subst e
          have h' := h d List.mem_cons_self
          simp only [hasCause, Bool.not_eq_true] at h'
          rw [h', Bool.false_and]
          exact h'.symm
        · simp [e]; rfl
      rw [without, List.foldl_cons, hd]
      exact ih x fun c hc => h c (List.mem_cons_of_mem d hc)

theorem writeStation_station (i : Sta) (r : Station) (s : State) : (writeStation i r s).station i = r := by
  unfold writeStation
  split
  · simp
  · rw [(raise_frame ..).station]; simp

theorem writeStation_station_ne (i j : Sta) (r : Station) (s : State) (h : j ≠ i) :
    (writeStation i r s).station j = s.station j := by
  unfold writeStation
  split
  · exact State.setStation_station_ne _ _ _ _ h
  · rw [(raise_frame ..).station]; exact State.setStation_station_ne _ _ _ _ h

/-- A write of a station's record leaves everything but the station records and notices. -/
theorem writeStation_frame (i : Sta) (r : Station) (s : State) : NoticeFrame (s.setStation i r) (writeStation i r s) := by
  unfold writeStation
  split
  · exact .refl _
  · exact raise_frame ..

/-! ## Requests taken and answered -/

/-- A request command is the arrival of its request's frame. -/
theorem exec_of_requestOf {c : Instr} {p : Port} {r : Request} (s : State) (h : requestOf c = some (p, r)) :
    exec c s = .next (requestArrives p r s) := by
  cases c <;> cases h <;> rfl

theorem bytesOf_length (k v : Nat) : (bytesOf k v).length = k := by
  induction k with
  | zero => rfl
  | succ k ih => rw [bytesOf, List.length_cons, ih]

theorem pairBytes_length (pairs : List (Byte × BitVec 32)) : (pairBytes pairs).length = 5 * pairs.length := by
  induction pairs with
  | nil => rfl
  | cons x xs ih =>
    unfold pairBytes at *
    rw [List.flatMap_cons, List.length_append, ih, List.length_cons, List.length_cons, bytesOf_length]
    omega

/-- A frame of an allowed length fits (R161). -/
theorem payload_length_le {r : Request} (h : r.lengthOk = true) : r.payload.length ≤ Config.maxPayload := by
  cases r
  case lotWrite | settingsWrite | calWrite =>
    simp only [Request.lengthOk, Bool.and_eq_true, decide_eq_true_eq] at h
    simp only [Request.payload, List.length_append, bytesOf_length, pairBytes_length, Config.maxPayload]
    omega
  case tagLoad count tags =>
    simp [Request.payload, Config.maxPayload, bytesOf_length]
  all_goals simp [Request.payload, Config.maxPayload, bytesOf_length]

/-- `u` has the time of `a`, and its ports but for NOTICE_OVF. -/
structure Noticed (a u : State) : Prop where
  now : u.now = a.now
  port : ∀ p, ∃ o, u.port p = { a.port p with noticeOvf := o }

theorem Noticed.of_ports {a u : State} (hn : u.now = a.now) (hp : u.ports = a.ports) : Noticed a u :=
  ⟨hn, fun p => ⟨(a.port p).noticeOvf, by unfold State.port; rw [hp]⟩⟩

theorem Noticed.refl (a : State) : Noticed a a := .of_ports rfl rfl

theorem Noticed.trans {a b c : State} (h : Noticed a b) (k : Noticed b c) : Noticed a c := by
  refine ⟨k.now.trans h.now, fun p => ?_⟩
  obtain ⟨o, ho⟩ := h.port p
  obtain ⟨o', ho'⟩ := k.port p
  exact ⟨o', by rw [ho', ho]⟩

theorem Noticed.of_notice {a u : State} (h : NoticeFrame a u) : Noticed a u := ⟨h.now, h.2⟩
theorem Noticed.of_move {a u : State} (h : MoveFrame a u) : Noticed a u := ⟨h.now, h.2.1⟩
theorem Noticed.of_lot {a u : State} (h : LotFrame a u) : Noticed a u := by
  have k := Noticed.of_move h
  exact ⟨k.now, k.port⟩

theorem writeStation_noticed (i : Sta) (r : Station) (s : State) : Noticed s (writeStation i r s) :=
  (Noticed.of_ports (a := s) (u := s.setStation i r) rfl rfl).trans (.of_notice (writeStation_frame i r s))

/-- An answered request: the frame arrives on a port that listens, its owner leaves `u` of what the arrival left, with the
time and the port itself touched by notices alone. -/
theorem answers_of_port {p : Port} {r : Request} {code : Code} {payload : List Byte} {c : Instr} {s u : State}
    (hL : Listens p s) (hr : requestOf c = some (p, r)) (hok : r.lengthOk = true)
    (hc : checked p r (validArrival p s) = (u, code, payload)) (hu : u.now = (validArrival p s).now)
    (hp : ∃ o, u.port p = { (validArrival p s).port p with noticeOvf := o }) : Answers p r.kind code payload c s u := by
  obtain ⟨o, ho⟩ := hp
  obtain ⟨o', ho'⟩ := (validArrival_frame p s).2 p
  rw [State.setPort_port_self] at ho'
  have hnow : u.now = s.now := hu.trans (validArrival_frame p s).now
  refine ⟨answerWith p r.kind (u, code, payload), ?_, rfl, ?_, fun q hq => answerWith_port_ne _ _ _ _ hq⟩
  · rw [exec_of_requestOf s hr, requestArrives_taken p r s hL (payload_length_le hok), hc]
  · unfold answerWith
    rw [State.setPort_port_self, ho, ho', hnow]
    simp only [portStatus, ho, ho']

/-- The same where every port is touched by notices alone. -/
theorem answers_of_checked {p : Port} {r : Request} {code : Code} {payload : List Byte} {c : Instr} {s u : State}
    (hL : Listens p s) (hr : requestOf c = some (p, r)) (hok : r.lengthOk = true)
    (hc : checked p r (validArrival p s) = (u, code, payload)) (hu : Noticed (validArrival p s) u) :
    Answers p r.kind code payload c s u :=
  answers_of_port hL hr hok hc hu.now (hu.port p)

/-- The same of a request that any port may send. -/
theorem answers_of_free {p : Port} {r : Request} {code : Code} {payload : List Byte} {c : Instr} {s u : State}
    (hL : Listens p s) (hr : requestOf c = some (p, r)) (hok : r.lengthOk = true) (hn : r.control = none)
    (hc : owner p r (validArrival p s) = (u, code, payload)) (hu : Noticed (validArrival p s) u) :
    Answers p r.kind code payload c s u :=
  answers_of_checked hL hr hok (by rw [checked_free p r _ hok hn, hc]) hu

/-- What stands when a frame has arrived: everything but ports and queues. -/
theorem validArrival_eq (p : Port) (s : State) :
    validArrival p s = { s with ports := (validArrival p s).ports, queues := (validArrival p s).queues } :=
  (validArrival_frame p s).1

theorem validArrival_station (p : Port) (s : State) (i : Sta) : (validArrival p s).station i = s.station i := by
  rw [validArrival_eq]; rfl

theorem validArrival_twist (p : Port) (s : State) (t : Twi) : (validArrival p s).twist t = s.twist t := by
  rw [validArrival_eq]; rfl

theorem validArrival_now (p : Port) (s : State) : (validArrival p s).now = s.now := by rw [validArrival_eq]

theorem staOf_staByte (i : Sta) : staOf (staByte i) = some i := by revert i; decide

theorem staOf_eq_none {b : Byte} (h : 7 < b.toNat) : staOf b = none := by
  unfold staOf; rw [dif_neg (by omega)]

/-- The same of a station-control request, from the bound port of its station. -/
theorem answers_of_steered {p : Port} {i : Sta} {r : Request} {code : Code} {payload : List Byte} {c : Instr} {s u : State}
    (hL : Listens p s) (hs : Steers p i s) (hr : requestOf c = some (p, r)) (hok : r.lengthOk = true)
    (hn : r.control = some (staByte i)) (hc : owner p r (validArrival p s) = (u, code, payload))
    (hu : Noticed (validArrival p s) u) : Answers p r.kind code payload c s u := by
  have hb : bindingOk p r (staByte i) (validArrival p s) = true := by
    unfold bindingOk
    rw [staOf_staByte]
    dsimp only
    rw [validArrival_station, hs, beq_self_eq_true]
  exact answers_of_checked hL hr hok (by rw [checked_owner p r _ _ hok hn hb, hc]) hu

/-- A request that any port may send, answered from what stands: its owner leaves every state as it was. -/
theorem onlyAnswers_of_free {p : Port} {r : Request} {code : Code} {payload : List Byte} {c : Instr} {s : State}
    (hL : Listens p s) (hr : requestOf c = some (p, r)) (hok : r.lengthOk = true) (hn : r.control = none)
    (hc : ∀ ps qs, owner p r { s with ports := ps, queues := qs } = ({ s with ports := ps, queues := qs }, code, payload)) :
    OnlyAnswers p r.kind code payload c s := by
  refine answers_of_free hL hr hok hn ?_ (.refl _)
  rw [validArrival_eq]
  exact hc _ _

end Sys2Proof.Laws
end

section
/-! The commands that take no request: what an unpowered part ignores, the starts, the timers and the channels. -/

namespace Sys2Proof.Laws

open Sys2Proof.Machine Sys2Proof.Safety

/-! ## A part that does not run, and one that does -/

theorem whenRunning_running {s : State} (f : State → State) (h : s.power = .running) : whenRunning f s = f s := if_pos h

theorem whenRunning_idle {s : State} (f : State → State) (h : s.power ≠ .running) : whenRunning f s = s := if_neg h

/-- A guarded command on a part that runs does what it guards. -/
theorem next_of_running {f : State → State} {s t : State} (h : s.power = .running) (e : f s = t) :
    (.next (whenRunning f s) : Host.Outcome State Fault Refusal) = .next t := by
  rw [whenRunning_running f h, e]

/-- A command that needs a running part is ignored by one that does not run: its meaning is guarded (R22, R173, R190). -/
theorem exec_idle {c : Instr} {s : State} (hc : needsRunningPart c = true) (h : s.power ≠ .running) :
    exec c s = .next s := by
  cases c
  case rawInputChange | supplyLow | saveComplete | supplyRecovery | powerUp | resetAssert | powerFailure | resetRelease =>
    cases hc
  all_goals exact congrArg Host.Outcome.next (whenRunning_idle _ h)

/-! ## The starts -/

theorem ResetPin.afterStart_eq (p : ResetPin) : p.afterStart = if p = .released then .released else .spent := by
  cases p <;> rfl

/-! ## Counted edges -/

/-- An accepted level is an edge where it differs from the one before, and the edge mode says whether it counts. -/
theorem acceptLevel_eq (c : Chan) (level : Bool) (s : State) :
    acceptLevel c level s =
      if (s.channel c).level != level && (s.settings.edge[c]).counts level
      then countedEdge c (s.setChannel c { s.channel c with level := level, pending := none })
      else s.setChannel c { s.channel c with level := level, pending := none } := by
  simp [acceptLevel]

/-- A raw change without a filter is accepted at once; with one it waits, and a change back discards what waits (R16). -/
theorem rawChange_eq (c : Chan) (level : Bool) (s : State) :
    rawChange c level s =
      if s.settings.filter[c] = .off then acceptLevel c level (s.setChannel c { s.channel c with raw := level })
      else s.setChannel c
        { s.channel c with raw := level, pending := if level = (s.channel c).level then none else some (level, s.now) } := by
  unfold rawChange
  dsimp only
  by_cases hf : s.settings.filter[c] = .off
  · rw [if_pos hf]; exact if_pos hf
  · rw [if_neg hf]
    refine (if_neg hf).trans ?_
    by_cases hl : level = (s.channel c).level
    · rw [if_pos hl, if_pos hl, setChannel_setChannel]
    · rw [if_neg hl, if_neg hl, setChannel_setChannel]; rfl

end Sys2Proof.Laws

namespace Sys2Proof.Proofs

open Sys2Proof.Machine Sys2Proof.Safety Sys2Proof.Laws

/-- Settles O6: every such command is guarded by the running part, and every line by it too. -/
theorem nothingIsTakenFromSupplyLow : Obligations.NothingIsTakenFromSupplyLow := by
  refine ⟨fun c s => exec_idle, fun s h => ?_⟩
  have off : (s.power == .running) = false := by simpa using h
  refine ⟨fun i => ?_, ?_, ?_, ?_, fun p => ?_⟩
  · simp [haltReleased, off]
  · simp [slowLine, off]
  · simp [cutLine, off]
  · simp [markLine, off]
  · simp [attnLine, off]

/-- Settles O53: each start command by the power it finds. -/
theorem startsRestoreOrClear : Obligations.StartsRestoreOrClear := by
  intro s unit pin channels warm cold
  have hpin : s.resetPin.afterStart = pin := ResetPin.afterStart_eq _
  have hwarm : warmStart s = warm := by
    unfold warmStart; rw [hpin]; rfl
  have hcold : coldStart s = cold := by
    unfold coldStart; rw [hpin]; rfl
  refine ⟨fun h hg => ?_, fun h hg => ?_, fun h => ?_, fun h => ?_, fun h => ?_, fun h => ?_, fun h hv => ?_, fun h hv => ?_,
    fun h => ?_, rfl⟩
  · have e : warmStart { s with imageValid := true } = warm := hwarm
    rw [h, hg] at e
    simp only [exec, execSaveComplete, h, hg, if_true, e]
  · simp [exec, execSaveComplete, h, hg]
  · simp only [exec, execSaveComplete]
  · simp only [exec, execSupplyRecovery, h, hwarm]
  · rcases h with h | h <;> simp only [exec, execSupplyRecovery, h]
  · simp only [exec, execSupplyRecovery, h]
  · simp only [exec, execPowerUp, h, hv, if_true, hwarm]
  · simp [exec, execPowerUp, h, hv, hcold]
  · simp only [exec, execPowerUp]

/-- Settles O16: each timer by its condition. -/
theorem timersActAtTheirTime : Obligations.TimersActAtTheirTime := by
  refine ⟨fun i s hp => ⟨fun due h => ?_, fun h => ?_, fun start h => ?_, fun h => ?_⟩, fun t s hp => ?_⟩
  · refine next_of_running hp ?_
    simp only [h]; rfl
  · refine next_of_running hp ?_
    simp only [h]
  · refine next_of_running hp ?_
    simp only [h]; rfl
  · refine next_of_running hp ?_
    simp only [h]
  · intro i w notice
    refine ⟨fun ho hs => ?_, fun h => ?_, fun start scale hs hl hr => ?_, fun h => ?_, fun start scale hs hl hr => ?_,
      fun h => ?_⟩
    · refine next_of_running hp ((if_pos ?_).trans rfl)
      unfold State.canExpire
      rw [ho, hs]; rfl
    · refine next_of_running hp (if_neg ?_)
      unfold State.canExpire
      rw [Bool.and_eq_true, beq_iff_eq]
      exact fun k => h.elim (by rw [k.1]; simp) (· k.2)
    · have hc : s.runUpOpen t = true := by unfold State.runUpOpen; rw [hs, hl]; rfl
      refine next_of_running hp ?_
      simp only [hc, show (s.twist t).runUp.running = some (start, scale) from hr]
      rfl
    · have hc : s.runUpOpen t = false := by
        unfold State.runUpOpen
        rw [Bool.and_eq_false_iff, beq_eq_false_iff_ne, Bool.not_eq_false']
        exact h
      refine next_of_running hp ?_
      simp only [hc]
    · have hc : s.runDownOpen t = true := by unfold State.runDownOpen; rw [hs, hl]; rfl
      refine next_of_running hp ?_
      simp only [hc, show (s.twist t).runDown.running = some (start, scale) from hr]
      rfl
    · have hc : s.runDownOpen t = false := by
        unfold State.runDownOpen
        rw [Bool.and_eq_false_iff, beq_eq_false_iff_ne, Bool.not_eq_false']
        exact h
      refine next_of_running hp ?_
      simp only [hc]

/-- Settles O17: raw changes by the filter, accepted changes by the edge mode, counted edges by the channel. -/
theorem channelsFilterAndCount : Obligations.ChannelsFilterAndCount := by
  refine ⟨fun c level s h => congrArg _ (if_pos h), fun c level s h => ?_, fun c level since s hp h => ?_, fun c t s => ?_⟩
  · intro ch counts taken
    refine ⟨fun hp => ?_, fun hp hf => ?_, fun hp hf => ?_⟩
    · exact congrArg _ ((if_neg h).trans (if_neg hp))
    · refine congrArg _ (((if_neg h).trans (if_pos hp)).trans ?_)
      rw [rawChange_eq, if_neg hf]
    · refine congrArg _ (((if_neg h).trans (if_pos hp)).trans ?_)
      rw [rawChange_eq, if_pos hf, acceptLevel_eq, State.setChannel_channel_self, setChannel_setChannel]
      rfl
  · intro ch counts held u
    refine next_of_running hp ?_
    simp only [h]
    rw [acceptLevel_eq]
    cases hf : s.settings.filter[c] <;> simp only [u, held, hf] <;> rfl
  · have ht (ht : c.val / 2 = t.val) : (⟨c.val / 2, by omega⟩ : Twi) = t := Fin.ext ht
    unfold countedEdge
    refine ⟨fun h => ?_, fun h => ?_, fun h => dif_neg (by omega)⟩
    · rw [dif_pos (by omega)]
      dsimp only
      rw [if_pos (by omega), ht (by omega)]
    · rw [dif_pos (by omega)]
      dsimp only
      rw [if_neg (by omega), ht (by omega)]

end Sys2Proof.Proofs
end

section
/-! The arithmetic of lengths, lays and errors (R20, R53 to R55). -/

namespace Sys2Proof.Laws

open Sys2Proof.Machine Sys2Proof.Safety

/-! ## Lengths (R20) -/

theorem Len.add_um_lt {l : Len} (d : Nat) : (l.add d).um < 1000 := by
  unfold Len.add
  split
  · decide
  · exact Nat.mod_lt _ (by decide)

theorem Len.add_total {l : Len} {d : Nat} (h : l.total + d < 4294967296000) : (l.add d).total = l.total + d := by
  unfold Len.total at *
  unfold Len.add Config.maxMm
  rw [if_neg (by omega)]
  dsimp only
  omega

theorem Len.add_saturates {l : Len} {d : Nat} (h : 4294967296000 ≤ l.total + d) : l.add d = ⟨4294967295, 999⟩ := by
  unfold Len.total at h
  unfold Len.add Config.maxMm
  split
  · rfl
  · rw [Len.mk.injEq]; constructor <;> omega

/-! ## The lay of a window (R53) -/

theorem clampNat_of_mem {lo hi v : Nat} (h : lo ≤ v) (h' : v ≤ hi) : clampNat lo hi v = v := by
  rw [clampNat, if_neg (by omega), if_neg (by omega)]

theorem clampInt_cases (lo hi v : Int) :
    v < lo ∧ clampInt lo hi v = lo ∨ lo ≤ v ∧ hi < v ∧ clampInt lo hi v = hi ∨ lo ≤ v ∧ v ≤ hi ∧ clampInt lo hi v = v := by
  unfold clampInt
  split
  · omega
  · split <;> omega

theorem clampInt_of_mem {lo hi v : Int} (h : lo ≤ v) (h' : v ≤ hi) : clampInt lo hi v = v := by
  rw [clampInt, if_neg (by omega), if_neg (by omega)]

theorem layOf_eq (dl n : Nat) : layOf dl n = clampNat 1 65535 ((dl + 50 * n) / (100 * n)) := by
  rw [layOf, Nat.mul_comm n 50, Nat.mul_comm n 100]

/-- Between its ends the lay is the rounded quotient. -/
theorem layOf_rounds {dl n : Nat} (hn : 0 < n) (h1 : 1 ≤ (dl + 50 * n) / (100 * n)) (h2 : (dl + 50 * n) / (100 * n) ≤ 65535) :
    100 * n * layOf dl n ≤ dl + 50 * n ∧ dl + 50 * n < 100 * n * layOf dl n + 100 * n := by
  rw [layOf_eq, clampNat_of_mem h1 h2]
  exact ⟨Nat.mul_div_le .., Nat.lt_mul_div_succ _ (by omega)⟩

theorem layOf_clamps {dl n : Nat} (hn : 0 < n) :
    1 ≤ layOf dl n ∧ layOf dl n ≤ 65535 ∧ (dl + 50 * n < 100 * n → layOf dl n = 1) ∧
      (65536 * (100 * n) ≤ dl + 50 * n → layOf dl n = 65535) := by
  rw [layOf_eq]
  obtain ⟨hlo, hhi⟩ := clampNat_bounds (lo := 1) (hi := 65535) (by decide) ((dl + 50 * n) / (100 * n))
  refine ⟨hlo, hhi, fun h => ?_, fun h => ?_⟩
  · rw [Nat.div_eq_of_lt h]; rfl
  · have := (Nat.le_div_iff_mul_le (by omega)).mpr h
    rw [clampNat, if_neg (by omega), if_pos (by omega)]

/-! ## The error of a lay (R54) -/

/-- A truncated quotient: its size is the quotient of the sizes, and its sign is the dividend's. -/
theorem tdiv_pos_bounds (a : Int) {b : Nat} (hb : 0 < b) :
    (a.tdiv b).natAbs * b ≤ a.natAbs ∧ a.natAbs < ((a.tdiv b).natAbs + 1) * b ∧ (0 ≤ a → 0 ≤ a.tdiv b) ∧
      (a ≤ 0 → a.tdiv b ≤ 0) := by
  have e : (a.tdiv b).natAbs = a.natAbs / b := by rw [Int.natAbs_tdiv, Int.natAbs_natCast]; rfl
  rw [e]
  refine ⟨Nat.div_mul_le_self .., ?_, fun h => Int.tdiv_nonneg h (Int.natCast_nonneg b), fun h => ?_⟩
  · rw [Nat.mul_comm]; exact Nat.lt_mul_div_succ _ hb
  · have := Int.tdiv_nonneg (a := -a) (by omega) (Int.natCast_nonneg b)
    rw [Int.neg_tdiv] at this
    omega

/-- The error, by the size and sign of the deviation `a` in ‰ of the target times the target. -/
theorem clamped_tdiv (a : Int) {b : Nat} (hb : 0 < b) :
    ∀ x, x = clampInt (-999) 999 (a.tdiv b) →
      -999 ≤ x ∧ x ≤ 999 ∧ (0 ≤ a → 0 ≤ x) ∧ (a ≤ 0 → x ≤ 0) ∧
        (a.natAbs < 1000 * b → x.natAbs * b ≤ a.natAbs ∧ a.natAbs < (x.natAbs + 1) * b) ∧
        (999 * b ≤ a.natAbs → 0 ≤ a → x = 999) ∧ (999 * b ≤ a.natAbs → a ≤ 0 → x = -999) := by
  obtain ⟨hle, hlt, hpos, hneg⟩ := tdiv_pos_bounds a hb
  generalize a.tdiv b = q at *
  rintro x rfl
  have ends := clampInt_cases (-999) 999 q
  have size (h : 999 * b ≤ a.natAbs) : 999 ≤ q.natAbs := by
    have := Nat.lt_of_mul_lt_mul_right (Nat.lt_of_le_of_lt h hlt)
    omega
  refine ⟨by omega, by omega, fun h => ?_, fun h => ?_, fun h => ?_, fun h h0 => ?_, fun h h0 => ?_⟩
  · have := hpos h; omega
  · have := hneg h; omega
  · have small : q.natAbs < 1000 := Nat.lt_of_mul_lt_mul_right (Nat.lt_of_le_of_lt hle h)
    rw [clampInt_of_mem (by omega) (by omega)]
    exact ⟨hle, hlt⟩
  · have := size h; have := hpos h0; omega
  · have := size h; have := hneg h0; omega

/-! ## The filtered error (R55) -/

/-- A later close moves the filtered error by a quarter of its distance, truncated. -/
theorem filterOf_moves (f e : Int) :
    4 * (filterOf false (some f) e - f).natAbs ≤ (e - f).natAbs ∧
      (e - f).natAbs < 4 * (filterOf false (some f) e - f).natAbs + 4 ∧
      (f ≤ e → f ≤ filterOf false (some f) e) ∧ (e ≤ f → filterOf false (some f) e ≤ f) := by
  obtain ⟨hle, hlt, hpos, hneg⟩ := tdiv_pos_bounds (e - f) (b := 4) (by decide)
  have eq : filterOf false (some f) e = f + (e - f).tdiv (4 : Nat) := rfl
  rw [eq]
  generalize (e - f).tdiv (4 : Nat) = q at *
  omega

end Sys2Proof.Laws

namespace Sys2Proof.Proofs

open Sys2Proof.Machine Sys2Proof.Safety Sys2Proof.Laws

/-- Settles O18: carry and saturation of a length, the rounded lay, the truncated error and the filter. -/
theorem measuringArithmetic : Obligations.MeasuringArithmetic := by
  refine ⟨fun l d => ⟨fun _ => Len.add_um_lt d, Len.add_total, Len.add_saturates⟩, fun dl n => layOf_rounds,
    fun dl n => layOf_clamps, fun lay target ht => ?_, fun f e => ?_⟩
  · obtain ⟨hlo, hhi, hpos, hneg, hmid, htop, hbot⟩ := clamped_tdiv (1000 * ((lay : Int) - target)) ht _ rfl
    refine ⟨hlo, hhi, fun h => hpos (by omega), fun h => hneg (by omega), fun h h' => ?_, fun h => htop (by omega) (by omega),
      fun h => hbot (by omega) (by omega)⟩
    have e : (1000 * ((lay : Int) - target)).natAbs = 1000 * ((lay : Int) - target).natAbs := by omega
    rw [e] at hmid
    exact hmid (by omega)
  · obtain ⟨hle, hlt, hup, hdown⟩ := filterOf_moves f e
    refine ⟨fun _ => rfl, hle, hlt, ?_, ?_, ?_⟩ <;> omega

end Sys2Proof.Proofs
end

section
/-! The reads (O8): each owner of a read answers from what stands and leaves every state as it was. -/

namespace Sys2Proof.Laws

open Sys2Proof.Machine Sys2Proof.Safety

theorem staOf_twiSta (t : Twi) : (staOf (staByte (twiSta t))).bind twistOf = some t := by
  rw [staOf_staByte]; exact twistOf_twiSta t

theorem staOf_loomSta (l : Loom) : (staOf (staByte (loomSta l))).bind loomOf = some l := by revert l; decide

theorem not_twist_byte {b : Byte} (h : 4 < b.toNat) : (staOf b).bind twistOf = none := by
  unfold staOf
  split
  · exact dif_neg (by show ¬ b.toNat < 5; omega)
  · rfl

theorem not_loom_byte {b : Byte} (h5 : b ≠ 5) (h6 : b ≠ 6) : (staOf b).bind loomOf = none := by
  revert b; decide

theorem no_places_byte {b : Byte} (h : b.toNat < 4 ∨ 6 < b.toNat) : ∀ i, staOf b = some i → placesOf i = [] := by
  revert b; decide

theorem places_of_draws {i : Sta} (h : i = staC0 ∨ i = loomSta 0 ∨ i = loomSta 1) : placesOf i ≠ [] := by
  rcases h with rfl | rfl | rfl <;> decide

end Sys2Proof.Laws

namespace Sys2Proof.Proofs

open Sys2Proof.Machine Sys2Proof.Safety Sys2Proof.Laws

/-- Settles O8: each read by its owner. -/
theorem readsHaveNoEffect : Obligations.ReadsHaveNoEffect := by
  intro p s hL
  refine ⟨fun i => ?_, fun b hb => ?_, fun t => ?_, fun b hb => ?_, ?_, fun n hn => ?_, ?_, fun n hn => ?_, fun i hi => ?_,
    fun b hb => ?_, fun i => ?_, fun b hb => ?_, fun l => ?_, fun b h5 h6 => ?_, ?_, ?_, ?_, ?_, fun b hb => ?_, ?_, ?_, ?_⟩
  case refine_1 =>
    refine onlyAnswers_of_free (r := .stationRead (staByte i)) hL rfl rfl rfl fun ps qs => ?_
    simp only [owner, serveStationRead, staOf_staByte]; rfl
  case refine_2 =>
    refine onlyAnswers_of_free (r := .stationRead b) hL rfl rfl rfl fun ps qs => ?_
    simp only [owner, serveStationRead, staOf_eq_none hb]; rfl
  case refine_3 =>
    refine onlyAnswers_of_free (r := .layRead (staByte (twiSta t))) hL rfl rfl rfl fun ps qs => ?_
    simp only [owner, serveLayRead, staOf_twiSta]; rfl
  case refine_4 =>
    refine onlyAnswers_of_free (r := .layRead b) hL rfl rfl rfl fun ps qs => ?_
    simp only [owner, serveLayRead, not_twist_byte hb]; rfl
  case refine_5 => exact onlyAnswers_of_free (r := .lotRead 0) hL rfl rfl rfl fun ps qs => rfl
  case refine_6 =>
    split
    · next l hl =>
      refine onlyAnswers_of_free (r := .lotRead n) hL rfl rfl rfl fun ps qs => ?_
      have hl : State.lot? { s with ports := ps, queues := qs } n.toNat = some l := hl
      simp only [owner, serveLotRead, if_neg hn, hl]; rfl
    · next hl =>
      refine onlyAnswers_of_free (r := .lotRead n) hL rfl rfl rfl fun ps qs => ?_
      have hl : State.lot? { s with ports := ps, queues := qs } n.toNat = none := hl
      simp only [owner, serveLotRead, if_neg hn, hl]; rfl
  case refine_7 => exact onlyAnswers_of_free (r := .bobbinRead 0) hL rfl rfl rfl fun ps qs => rfl
  case refine_8 =>
    split
    · next b hb =>
      refine onlyAnswers_of_free (r := .bobbinRead n) hL rfl rfl rfl fun ps qs => ?_
      have hb : State.bobbin? { s with ports := ps, queues := qs } n.toNat = some b := hb
      simp only [owner, serveBobbinRead, if_neg hn, hb]; rfl
    · next hb =>
      refine onlyAnswers_of_free (r := .bobbinRead n) hL rfl rfl rfl fun ps qs => ?_
      have hb : State.bobbin? { s with ports := ps, queues := qs } n.toNat = none := hb
      simp only [owner, serveBobbinRead, if_neg hn, hb]; rfl
  case refine_9 =>
    refine onlyAnswers_of_free (r := .feedRead (staByte i)) hL rfl rfl rfl fun ps qs => ?_
    simp only [owner, serveFeedRead, staOf_staByte, if_neg (places_of_draws hi)]; rfl
  case refine_10 =>
    refine onlyAnswers_of_free (r := .feedRead b) hL rfl rfl rfl fun ps qs => ?_
    unfold owner serveFeedRead
    dsimp only
    split
    · rfl
    · next i hi => rw [if_pos (no_places_byte hb i hi)]; rfl
  case refine_11 =>
    refine onlyAnswers_of_free (r := .segmentRead (BitVec.ofNat 8 i.val)) hL rfl rfl rfl fun ps qs => ?_
    have hi : (BitVec.ofNat 8 i.val).toNat = i.val := by simp; omega
    simp only [owner, serveSegmentRead, hi, dif_pos i.isLt]; rfl
  case refine_12 =>
    refine onlyAnswers_of_free (r := .segmentRead b) hL rfl rfl rfl fun ps qs => ?_
    simp only [owner, serveSegmentRead, dif_neg (show ¬ b.toNat < 64 by omega)]; rfl
  case refine_13 =>
    refine onlyAnswers_of_free (r := .loomRead (staByte (loomSta l))) hL rfl rfl rfl fun ps qs => ?_
    simp only [owner, serveLoomRead, staOf_loomSta]; rfl
  case refine_14 =>
    refine onlyAnswers_of_free (r := .loomRead b) hL rfl rfl rfl fun ps qs => ?_
    simp only [owner, serveLoomRead, not_loom_byte h5 h6]; rfl
  case refine_15 => exact onlyAnswers_of_free (r := .meterRead) hL rfl rfl rfl fun ps qs => rfl
  case refine_16 => exact onlyAnswers_of_free (r := .coilerRead 0) hL rfl rfl rfl fun ps qs => rfl
  case refine_17 => exact onlyAnswers_of_free (r := .coilerRead 1) hL rfl rfl rfl fun ps qs => rfl
  case refine_18 => exact onlyAnswers_of_free (r := .coilerRead 2) hL rfl rfl rfl fun ps qs => rfl
  case refine_19 =>
    refine onlyAnswers_of_free (r := .coilerRead b) hL rfl rfl rfl fun ps qs => ?_
    have ne (k : Byte) (hk : k.toNat ≤ 2) : b ≠ k := by rintro rfl; omega
    simp only [owner, serveCoilerRead, if_neg (ne 0 (by decide)), if_neg (ne 1 (by decide)), if_neg (ne 2 (by decide))]; rfl
  case refine_20 =>
    have e : s.settings.routing.toList.map (fun x => BitVec.ofNat 8 x.toNat) = routeBytes s.settings := by
      unfold routeBytes u1
      rw [List.map_eq_flatMap]
      simp [bytesOf]
    rw [e]
    exact onlyAnswers_of_free (r := .routeRead) hL rfl rfl rfl fun ps qs => rfl
  case refine_21 => exact onlyAnswers_of_free (r := .settingsRead) hL rfl rfl rfl fun ps qs => rfl
  case refine_22 => exact onlyAnswers_of_free (r := .calRead) hL rfl rfl rfl fun ps qs => rfl

end Sys2Proof.Proofs
end

section
/-! The raise of a cause with its notices (O13). -/

namespace Sys2Proof.Laws

open Sys2Proof.Machine Sys2Proof.Safety

/-! ## The notices of a move and of a raise -/

theorem Offers.trans {s t u : State} (h : Offers s t) (k : Offers t u) : Offers s u :=
  ⟨k.ports.trans h.ports, k.queues.trans h.queues, k.now.trans h.now, k.routing.trans h.routing,
    fun i => (k.bound i).trans (h.bound i)⟩

theorem Offers.setTwist (s : State) (t : Twi) (w : Twist) : Offers s (s.setTwist t w) := ⟨rfl, rfl, rfl, rfl, fun _ => rfl⟩

/-- The STATE notice of a station that goes from `st` to `st'`; none when it stays (R1). -/
def moveTold (i : Sta) (st' st : RunState) (u : State) : State :=
  if st' = st then u else raise .state (.station i) st'.word u

/-- The notices of a cause raised on a station in state `st` (R4 to R6): FAULT, and the STATE notice of the move. -/
def haltTold (i : Sta) (word : BitVec 16) (st : RunState) (u : State) : State :=
  moveTold i (afterRaise i st) st (raise .fault (.station i) word u)

theorem Offers.moveTold {s t : State} (h : Offers s t) (i : Sta) (st' st : RunState) :
    Offers (moveTold i st' st s) (moveTold i st' st t) := by
  unfold Laws.moveTold
  split
  · exact h
  · exact h.raise ..

theorem Offers.haltTold {s t : State} (h : Offers s t) (i : Sta) (word : BitVec 16) (st : RunState) :
    Offers (haltTold i word st s) (haltTold i word st t) := (h.raise ..).moveTold ..

theorem moveTo_offers {i : Sta} {st : RunState} {s : State} (st' : RunState) (e : (s.station i).state = st) :
    Offers (moveTold i st' st s) (moveTo i st' s) := by
  unfold moveTold moveTo changeState
  rw [e]
  by_cases h : st = st'
  · rw [if_pos h, if_pos h.symm]; exact .refl s
  · rw [if_neg h, if_neg (Ne.symm h)]
    refine Offers.raise ?_ _ _ _
    exact Offers.setStation rfl

theorem enterRunDown_offers {t : Twi} {st : RunState} {s : State} (e : (s.station (twiSta t)).state = st) :
    Offers (moveTold (twiSta t) .runDown st s) (enterRunDown t s) := by
  unfold enterRunDown
  dsimp only
  refine Offers.trans (Offers.moveTold (Offers.setTwist s t _) (twiSta t) .runDown st) (moveTo_offers .runDown ?_)
  exact e

/-- A halt tells the STATE notice of where it goes (R5, R6). -/
theorem haltMove_offers (i : Sta) (s : State) :
    Offers (moveTold i (afterRaise i (s.station i).state) (s.station i).state s) (haltMove i s) := by
  suffices key : ∀ st, (s.station i).state = st → Offers (moveTold i (afterRaise i st) st s) (haltMove i s) from key _ rfl
  intro st e
  unfold haltMove
  rw [e]
  cases st
  case idle | standby | knotting | active => exact moveTo_offers .halted e
  case runUp | steady =>
    cases h : twistOf i with
    | none =>
      simp only [afterRaise, h, moveTold]
      exact .refl s
    | some t =>
      obtain rfl := twiSta_of_twistOf h
      simp only [afterRaise, h]
      exact enterRunDown_offers e
  case runDown | halted | rowHold => exact .refl s

/-- A cause raised tells FAULT with the cause first, and then the move (R2, R5, R6). -/
theorem raiseOne_offers (i : Sta) (c : Cause) (s : State) (ha : c.admissible (kindOf i) = true) (hn : s.has i c = false) :
    Offers (haltTold i c.word (s.station i).state s) (raiseOne i c s) := by
  have added : Offers s (addCause i c s) := by unfold addCause; exact Offers.setStation rfl
  unfold raiseOne
  rw [if_neg (by simp [ha, hn])]
  have hs : ((raise .fault (.station i) c.word (addCause i c s)).station i).state = (s.station i).state := by
    rw [(raise_frame ..).station]; unfold addCause; simp
  have moved := haltMove_offers i (raise .fault (.station i) c.word (addCause i c s))
  rw [hs] at moved
  exact ((added.raise _ _ _).moveTold _ _ _).trans moved

/-! ## K0 and C0 (R4) -/

theorem raiseCause_of_calm (i : Sta) (c : Cause) (s : State)
    (h : ¬((s.station staK0).state ≠ .halted ∧ ((raiseOne i c s).station staK0).state = .halted ∧
      ((raiseOne i c s).station staC0).lot.isSome ∧ (raiseOne i c s).has staC0 .coilerHalt = false)) :
    raiseCause i c s = raiseOne i c s := by
  unfold raiseCause coilerHalted
  split
  · next hc =>
    obtain ⟨h1, h2, h3⟩ := hc
    unfold raiseOne
    exact if_pos (.inr (by simpa [raiseOne] using fun e => h ⟨h1, h2, h3, e⟩))
  · rfl

/-- The raise of a cause touches its own station, and C0 where K0 is its own (R4). -/
theorem raiseCause_station_ne (i j : Sta) (c : Cause) (s : State) (h : j ≠ i) (h' : j ≠ staC0 ∨ i ≠ staK0) :
    (raiseCause i c s).station j = s.station j := by
  by_cases hi : i = staK0
  · unfold raiseCause coilerHalted
    split
    · rw [raiseOne_station_ne _ _ _ _ (h'.resolve_right (not_not.mpr hi)), raiseOne_station_ne _ _ _ _ h]
    · exact raiseOne_station_ne _ _ _ _ h
  · rw [raiseCause_eq_raiseOne _ _ _ hi]
    exact raiseOne_station_ne _ _ _ _ h

/-- On its own station the raise of a cause does what R2, R5 and R6 say, K0's included. -/
theorem raiseCause_station (i : Sta) (c : Cause) (s : State) : (raiseCause i c s).station i = (raiseOne i c s).station i := by
  by_cases hi : i = staK0
  · subst hi
    unfold raiseCause coilerHalted
    split
    · exact raiseOne_station_ne _ _ _ _ (by decide)
    · rfl
  · rw [raiseCause_eq_raiseOne _ _ _ hi]

theorem afterRaise_eq (i : Sta) (st : RunState) :
    afterRaise i st =
      match st with
      | .idle | .standby | .knotting | .active => RunState.halted
      | .runUp | .steady => if i.val < 5 then .runDown else st
      | st => st := by
  have e : (twistOf i).isSome = decide (i.val < 5) := by revert i; decide
  cases st <;> simp only [afterRaise, e, decide_eq_true_eq]

end Sys2Proof.Laws

namespace Sys2Proof.Proofs

open Sys2Proof.Machine Sys2Proof.Safety Sys2Proof.Laws

/-- Settles O13: the station's record and its notices by the raise on one station, and C0's after K0's. -/
theorem raisedCauseStopsTheStation : Obligations.RaisedCauseStopsTheStation := by
  intro i c s r c0 moves tells r'
  have hmoves : ∀ j st, moves j st = afterRaise j st := fun j st => (afterRaise_eq j st).symm
  have htells : ∀ j w st u, tells j w st u = haltTold j w st u := fun j w st u => by
    unfold tells haltTold moveTold
    rw [hmoves]
  have hr' : r' = { r with
      causes := r.causes ||| BitVec.twoPow 12 c.idx
      state := afterRaise i r.state
      retryUntilMs := if c = .laySevere then s.settings.retryWait.ms.map (s.nowMs + ·) else r.retryUntilMs } := by
    unfold r'
    rw [hmoves]
  clear_value moves tells r'
  refine ⟨raiseCause_idle i c s, fun ha hn => ?_⟩
  intro t
  have hown : (raiseOne i c s).station i = r' := by rw [hr']; exact raiseOne_station i c s ha hn
  have hoff := raiseOne_offers i c s ha hn
  refine ⟨(raiseCause_move i c s).1, (raiseCause_station i c s).trans hown, fun j => raiseCause_station_ne i j c s, ?_, ?_⟩
  · intro h
    have calm : t = raiseOne i c s := by
      by_cases hi : i = staK0
      · subst hi
        refine raiseCause_of_calm _ _ _ ?_
        rintro ⟨h1, h2, h3, h4⟩
        have hC : (raiseOne staK0 c s).station staC0 = c0 := raiseOne_station_ne _ _ _ _ (by decide)
        rw [State.has, hC] at h4
        rw [hC] at h3
        rw [hown, hr'] at h2
        rw [hmoves] at h
        rcases h with h | h | h | h | h
        · exact h rfl
        · exact h1 h
        · exact h h2
        · rw [h] at h3; cases h3
        · rw [h] at h4; cases h4
      · exact raiseCause_eq_raiseOne _ _ _ hi
    rw [calm, htells]
    exact ⟨hoff.queues, fun hC => raiseOne_station_ne _ _ _ _ (Ne.symm hC)⟩
  · intro hi hs hm hl hh
    subst hi
    have hC : (raiseOne staK0 c s).station staC0 = c0 := raiseOne_station_ne _ _ _ _ (by decide)
    have hn0 : (raiseOne staK0 c s).has staC0 .coilerHalt = false := by rw [State.has, hC]; exact hh
    have e : t = raiseOne staC0 .coilerHalt (raiseOne staK0 c s) := by
      refine if_pos ⟨hs, ?_, ?_⟩
      · rw [hown, hr']; exact (hmoves _ _).symm.trans hm
      · rw [hC]; exact Option.isSome_iff_ne_none.mpr hl
    have hoff0 := raiseOne_offers staC0 .coilerHalt _ rfl hn0
    rw [hC] at hoff0
    rw [e, htells, htells, raiseOne_station _ _ _ rfl hn0, hC, hmoves]
    exact ⟨rfl, ((hoff.haltTold ..).trans hoff0).queues⟩

end Sys2Proof.Proofs
end

section
/-! Coils that grow (O24), and wheel edges (O23). -/

namespace Sys2Proof.Laws

open Sys2Proof.Machine Sys2Proof.Safety

/-! ## Arbors -/

theorem setCoiler_setCoiler (s : State) (k k' : Coiler) : (s.setCoiler k).setCoiler k' = s.setCoiler k' := rfl

theorem Coiler.setArbor_setArbor (k : Coiler) (id : ArborId) (x y : Arbor) :
    (k.setArbor id x).setArbor id y = k.setArbor id y := by cases id <;> rfl

theorem Coiler.arbor_setArbor (k : Coiler) (id : ArborId) (x : Arbor) : (k.setArbor id x).arbor id = x := by
  cases id <;> rfl

theorem Coiler.arbor_setArbor_other (k : Coiler) (id : ArborId) (x : Arbor) :
    (k.setArbor id x).arbor id.other = k.arbor id.other := by cases id <;> rfl

theorem setArbor_setArbor (s : State) (id : ArborId) (x y : Arbor) :
    (s.setArbor id x).setArbor id y = s.setArbor id y :=
  congrArg s.setCoiler (Coiler.setArbor_setArbor s.coiler id x y)

theorem arbor_setArbor (s : State) (id : ArborId) (x : Arbor) : (s.setArbor id x).arbor id = x :=
  Coiler.arbor_setArbor ..

theorem arbor_setArbor_other (s : State) (id : ArborId) (x : Arbor) :
    (s.setArbor id x).arbor id.other = s.arbor id.other := Coiler.arbor_setArbor_other ..

theorem receivingCoil_of_busy {s : State} {id : ArborId} {ph : ArborPhase} {c : Coil} (hr : s.receiving = some id)
    (ha : s.arbor id = .busy ph c) : s.receivingCoil = some c := by
  unfold State.receivingCoil
  rw [hr, Option.bind_some, ha]; rfl

theorem receivingCoil_none {s : State} (hr : s.receiving = none) : s.receivingCoil = none := by
  unfold State.receivingCoil; rw [hr]; rfl

/-! ## The points of a coil (R142, R143, R145) -/

/-- A multiple of `step` lies above `old` and not above `top` exactly when the greatest one not above `top` does. -/
theorem multiple_between (step top old : Nat) : step ≠ 0 ∧ old < top / step * step ↔ ∃ n, old < n * step ∧ n * step ≤ top := by
  constructor
  · exact fun h => ⟨_, h.2, Nat.div_mul_le_self top step⟩
  · rintro ⟨n, h1, h2⟩
    have hstep : step ≠ 0 := by rintro rfl; simp at h1
    have hn : n ≤ top / step := (Nat.le_div_iff_mul_le (Nat.pos_of_ne_zero hstep)).mpr h2
    exact ⟨hstep, lt_of_lt_of_le h1 (Nat.mul_le_mul_right _ hn)⟩

theorem le_min_pred_iff {old m new top : Nat} (h : old < m) : m ≤ min new (top - 1) ↔ m ≤ new ∧ m < top := by omega

/-- A mark point is passed where a multiple of the spacing lies beyond the old length, not beyond the new one, and before
the cut point. -/
theorem passesMark_iff (r : RopeLot) (old new : Nat) :
    passesMark r old new = true ↔
      ∃ n, old < n * (r.mark * 1000) ∧ n * (r.mark * 1000) ≤ new ∧ n * (r.mark * 1000) < r.coilLen * 1000 := by
  unfold passesMark
  dsimp only
  rw [Bool.and_eq_true, bne_iff_ne, decide_eq_true_eq, multiple_between]
  exact exists_congr fun n => and_congr_right fun h => le_min_pred_iff h

/-- A coil past its points: its arbor in the phase `ph`, and the mark pulse begun where a mark point was passed. -/
def coilAt (id : ArborId) (ph : ArborPhase) (c : Coil) (mark : Bool) (s : State) : State :=
  (s.setCoiler { s.coiler with markMs := if mark then some s.nowMs else s.coiler.markMs }).setArbor id (.busy ph c)

/-- What a coil increment does once the coil of the arbor has grown (R142 to R145). -/
def passPoints (id : ArborId) (ph : ArborPhase) (r : RopeLot) (old : Nat) (grown : Coil) (s : State) : State :=
  let s := if passesMark r old grown.length.mm then s.setCoiler { s.coiler with markMs := some s.nowMs } else s
  let slows : Bool := ph == .winding && r.slowMm ≤ grown.length.mm
  let s := if slows then s.setArbor id (.busy .slowing grown) else s
  if (slows || ph == .slowing) && r.cutMm ≤ grown.length.mm then cutPoint id s else s

theorem coilIncrement_eq {d : Nat} {s : State} {id : ArborId} {ph : ArborPhase} {c : Coil} {r : RopeLot}
    (hr : s.receiving = some id) (ha : s.arbor id = .busy ph c) (hw : ph.winds = true) (hl : s.ropeOf c.lot = some r) :
    coilIncrement d s =
      passPoints id ph r c.length.mm { c with length := c.length.add d }
        (s.setArbor id (.busy ph { c with length := c.length.add d })) := by
  have hl' : State.ropeOf (s.setArbor id (.busy ph { c with length := c.length.add d })) c.lot = some r := hl
  unfold coilIncrement
  simp only [hr, ha]
  rw [hw, hl']
  rfl

/-- A coil that winds, grown: its mark point, and by its length the slow and the cut point. -/
theorem passPoints_winds {id : ArborId} {ph : ArborPhase} {r : RopeLot} {old : Nat} {grown : Coil} {s : State} {mark : Bool}
    (hw : ph.winds = true) (hm : passesMark r old grown.length.mm = mark) :
    passPoints id ph r old grown (s.setArbor id (.busy ph grown)) =
      if ph = .slowing ∨ r.slowMm ≤ grown.length.mm then
        if r.cutMm ≤ grown.length.mm then cutPoint id (coilAt id .slowing grown mark s) else coilAt id .slowing grown mark s
      else coilAt id .winding grown mark s := by
  have marked : (if mark = true then (s.setArbor id (.busy ph grown)).setCoiler
        { (s.setArbor id (.busy ph grown)).coiler with markMs := some (s.setArbor id (.busy ph grown)).nowMs }
      else s.setArbor id (.busy ph grown)) = coilAt id ph grown mark s := by
    unfold coilAt
    cases id <;> split <;> rfl
  have slowed : (coilAt id .winding grown mark s).setArbor id (.busy .slowing grown) = coilAt id .slowing grown mark s :=
    setArbor_setArbor ..
  unfold passPoints
  rw [hm, marked]
  cases ph
  case winding => by_cases h : r.slowMm ≤ grown.length.mm <;> simp [h, slowed]
  case slowing => simp
  case cutting | packing | posting => cases hw

/-- A coil increment for a coil that winds. -/
theorem coilIncrement_winds {d : Nat} {s : State} {id : ArborId} {ph : ArborPhase} {c grown : Coil} {r : RopeLot} {mark : Bool}
    (hr : s.receiving = some id) (ha : s.arbor id = .busy ph c) (hw : ph.winds = true) (hl : s.ropeOf c.lot = some r)
    (hg : { c with length := c.length.add d } = grown) (hm : passesMark r c.length.mm grown.length.mm = mark) :
    coilIncrement d s =
      if ph = .slowing ∨ r.slowMm ≤ grown.length.mm then
        if r.cutMm ≤ grown.length.mm then cutPoint id (coilAt id .slowing grown mark s) else coilAt id .slowing grown mark s
      else coilAt id .winding grown mark s := by
  rw [coilIncrement_eq hr ha hw hl, hg, passPoints_winds hw hm]

/-- A CUTTING coil takes the length alone. -/
theorem coilIncrement_cutting {d : Nat} {s : State} {id : ArborId} {c : Coil} (hr : s.receiving = some id)
    (ha : s.arbor id = .busy .cutting c) :
    coilIncrement d s = s.setArbor id (.busy .cutting { c with length := c.length.add d }) := by
  unfold coilIncrement
  rw [hr]
  dsimp only
  rw [ha]
  rfl

/-! ## Causes added -/

/-- A raised admissible cause stands, whether it stood before or not. -/
theorem raiseCause_causes {i : Sta} {c : Cause} (s : State) (ha : c.admissible (kindOf i) = true) :
    ((raiseCause i c s).station i).causes = (s.station i).causes ||| BitVec.twoPow 12 c.idx := by
  rw [raiseCause_station]
  cases h : s.has i c with
  | false => rw [raiseOne_station i c s ha h]; rfl
  | true =>
    have e : raiseOne i c s = s := if_pos (.inr h)
    rw [e]
    have hc : hasCause (s.station i).causes c = true := h
    refine BitVec.eq_of_getLsbD_eq fun j _ => ?_
    rw [BitVec.getLsbD_or, BitVec.getLsbD_twoPow]
    by_cases ej : j = c.idx
    · subst ej
      rw [show (s.station i).causes.getLsbD c.idx = true from hc]; rfl
    · simp [Ne.symm ej]

/-- Where a raised cause leaves a station's state (R5, R6). -/
theorem raiseCause_state (i : Sta) (c : Cause) (s : State) :
    ((raiseCause i c s).station i).state =
      if c.admissible (kindOf i) = false ∨ s.has i c = true then (s.station i).state else afterRaise i (s.station i).state := by
  rw [raiseCause_station]
  split
  · next h => unfold raiseOne; rw [if_pos h]
  · next h =>
    rw [not_or, Bool.not_eq_false, Bool.not_eq_true] at h
    rw [raiseOne_station i c s h.1 h.2]

theorem afterRaise_still {i : Sta} {st : RunState} (h : st = .runDown ∨ st = .halted) : afterRaise i st = st := by
  rcases h with rfl | rfl <;> rfl

theorem raiseCause_state_still {i : Sta} {c : Cause} {s : State}
    (h : (s.station i).state = .runDown ∨ (s.station i).state = .halted) :
    ((raiseCause i c s).station i).state = (s.station i).state := by
  rw [raiseCause_state, afterRaise_still h, ite_self]

/-- The causes of a cut point on C0: CUT_STOP, and ARBOR_BUSY while the other arbor is not FREE (R143). -/
def cutCauses (other : Arbor) (s : State) : State :=
  if other.isFree then raiseCause staC0 .cutStop s else raiseCause staC0 .arborBusy (raiseCause staC0 .cutStop s)

theorem cutPoint_eq {id : ArborId} {ph : ArborPhase} {c : Coil} {s : State} (h : s.arbor id = .busy ph c) :
    cutPoint id s = cutCauses (s.arbor id.other) (s.setArbor id (.busy .cutting c)) := by
  have e : (raiseCause staC0 .cutStop (s.setArbor id (.busy .cutting c))).arbor id.other = s.arbor id.other := by
    unfold State.arbor
    rw [(raiseCause_move ..).coiler]
    exact arbor_setArbor_other ..
  unfold cutPoint
  rw [h]
  dsimp only
  rw [e]
  rfl

/-- The cut point of a coil past its points: the arbor is CUTTING, and the causes stand on C0. -/
theorem cutPoint_coilAt (id : ArborId) (ph : ArborPhase) (c : Coil) (mark : Bool) (s : State) :
    cutPoint id (coilAt id ph c mark s) = cutCauses (s.arbor id.other) (coilAt id .cutting c mark s) := by
  have arbor : (coilAt id ph c mark s).arbor id = .busy ph c := arbor_setArbor ..
  have other : (coilAt id ph c mark s).arbor id.other = s.arbor id.other := by cases id <;> rfl
  have cut : (coilAt id ph c mark s).setArbor id (.busy .cutting c) = coilAt id .cutting c mark s := setArbor_setArbor ..
  rw [cutPoint_eq arbor, other, cut]

theorem cutCauses_move (other : Arbor) (s : State) : MoveFrame s (cutCauses other s) := by
  unfold cutCauses
  split
  · exact raiseCause_move ..
  · exact (raiseCause_move ..).trans (raiseCause_move ..)

theorem cutCauses_station_ne (other : Arbor) (s : State) (j : Sta) (h : j ≠ staC0) :
    (cutCauses other s).station j = s.station j := by
  unfold cutCauses
  split
  · exact raiseCause_station_ne _ _ _ _ h (.inl h)
  · rw [raiseCause_station_ne _ _ _ _ h (.inl h), raiseCause_station_ne _ _ _ _ h (.inl h)]

theorem cutCauses_causes (other : Arbor) (s : State) :
    ((cutCauses other s).station staC0).causes = (s.station staC0).causes ||| 0x200 ||| (if other.isFree then 0 else 0x400) := by
  unfold cutCauses
  split
  · rw [raiseCause_causes _ rfl]
    exact (BitVec.or_zero ..).symm
  · rw [raiseCause_causes _ rfl, raiseCause_causes _ rfl]; rfl

theorem cutCauses_state_still {other : Arbor} {s : State}
    (h : (s.station staC0).state = .runDown ∨ (s.station staC0).state = .halted) :
    ((cutCauses other s).station staC0).state = (s.station staC0).state := by
  unfold cutCauses
  split
  · exact raiseCause_state_still h
  · rw [raiseCause_state_still, raiseCause_state_still h]
    rw [raiseCause_state_still h]; exact h

/-- A first CUT_STOP moves C0 once; ARBOR_BUSY finds it stopped. -/
theorem cutCauses_state {other : Arbor} {s : State} (hn : hasCause (s.station staC0).causes .cutStop = false)
    (h : afterRaise staC0 (s.station staC0).state = .runDown ∨ afterRaise staC0 (s.station staC0).state = .halted) :
    ((cutCauses other s).station staC0).state = afterRaise staC0 (s.station staC0).state := by
  have e : ((raiseCause staC0 .cutStop s).station staC0).state = afterRaise staC0 (s.station staC0).state := by
    rw [raiseCause_state, if_neg]
    rw [not_or]
    exact ⟨by decide, by unfold State.has; rw [hn]; simp⟩
  unfold cutCauses
  split
  · exact e
  · rw [raiseCause_state_still (by rw [e]; exact h), e]

end Sys2Proof.Laws

namespace Sys2Proof.Proofs

open Sys2Proof.Machine Sys2Proof.Safety Sys2Proof.Laws

/-- Settles O24: a winding coil by its points, and the cut point by the causes on C0. -/
theorem coilsGrowThroughTheirPoints : Obligations.CoilsGrowThroughTheirPoints := by
  intro d s id ph c hr ha grown
  have hg : { c with length := c.length.add d } = grown := rfl
  clear_value grown
  refine ⟨?_, fun r mark hl hmark => ?_⟩
  · rintro rfl
    rw [coilIncrement_cutting hr ha, hg]
  · intro base slow
    have hm : passesMark r c.length.mm grown.length.mm = mark := by
      rw [Bool.eq_iff_iff, passesMark_iff, hmark]
    refine ⟨?_, fun hph => ?_⟩
    · rintro rfl hlt
      rw [coilIncrement_winds hr ha rfl hl hg hm, if_neg]
      · rfl
      · rintro (h | h)
        · cases h
        · exact absurd h (Nat.not_le.mpr hlt)
    · have hw : ph.winds = true := by rcases hph with ⟨rfl, -⟩ | rfl <;> rfl
      have e := (coilIncrement_winds hr ha hw hl hg hm).trans (if_pos (hph.symm.imp_right And.right))
      refine ⟨fun hlt => ?_, fun hle => ?_⟩
      · exact e.trans (if_neg (Nat.not_le.mpr hlt))
      · intro u c0
        have hu : u = cutCauses (s.arbor id.other) (base.setArbor id (.busy .cutting grown)) :=
          (e.trans (if_pos hle)).trans (cutPoint_coilAt ..)
        have hmove := cutCauses_move (s.arbor id.other) (base.setArbor id (.busy .cutting grown))
        rw [← hu] at hmove
        clear_value u
        refine ⟨?_, fun j hj => ?_, ?_, fun hs hn => ?_, fun hs hn => ?_, fun hs => ?_, fun hp => ?_⟩
        · exact hmove.1
        · rw [hu]; exact cutCauses_station_ne _ _ j hj
        · rw [hu]; exact cutCauses_causes ..
        · have ea : afterRaise staC0 c0.state = .runDown := by rcases hs with h | h <;> rw [h] <;> rfl
          rw [hu]; exact (cutCauses_state (s := base.setArbor id (.busy .cutting grown)) hn (.inl ea)).trans ea
        · have ea : afterRaise staC0 c0.state = .halted := by rcases hs with h | h <;> rw [h] <;> rfl
          rw [hu]; exact (cutCauses_state (s := base.setArbor id (.busy .cutting grown)) hn (.inr ea)).trans ea
        · rw [hu]; exact cutCauses_state_still hs
        · have hk : u.coiler = base.coiler.setArbor id (.busy .cutting grown) := hmove.coiler
          have hup : u.power = .running := hmove.power.trans hp
          have hfree : ∀ a : Arbor, a.isFree = true ↔ a = .free := fun a => by cases a <;> simp [Arbor.isFree]
          unfold slowLine cutLine
          rw [hk, hup]
          cases id
          · refine ⟨rfl, ?_⟩
            show (_ && (true && s.coiler.b.isFree || s.coiler.b.isCutting && false)) = true ↔ s.coiler.b = .free
            simp [hfree]
          · refine ⟨by simp [Coiler.setArbor], ?_⟩
            show (_ && (s.coiler.a.isCutting && false || true && s.coiler.a.isFree)) = true ↔ s.coiler.a = .free
            simp [hfree]

end Sys2Proof.Proofs
end

section
/-! Wheel edges of K0 (O23). -/

namespace Sys2Proof.Laws

open Sys2Proof.Machine Sys2Proof.Safety

theorem NoticeFrame.meter {s t : State} (h : NoticeFrame s t) : t.meter = s.meter := by rw [h.1]

/-! ## Notices that a setting may silence -/

/-- A notice, unless it is silenced (R75). -/
def raiseUnless (quiet : Bool) (cls : NoticeClass) (sub : Subject) (d : BitVec 16) (s : State) : State :=
  if quiet then s else raise cls sub d s

theorem warn_eq_raiseUnless (w : Warning) (cls : NoticeClass) (sub : Subject) (d : BitVec 16) (s : State) :
    warn w cls sub d s = raiseUnless (s.settings.disable.getLsbD w.idx) cls sub d s := rfl

theorem raiseUnless_frame (quiet : Bool) (cls : NoticeClass) (sub : Subject) (d : BitVec 16) (s : State) :
    NoticeFrame s (raiseUnless quiet cls sub d s) := by
  unfold raiseUnless
  split
  · exact .refl s
  · exact raise_frame ..

theorem raiseUnless_setMeter (quiet : Bool) (cls : NoticeClass) (sub : Subject) (d : BitVec 16) (s : State) (m : Meter) :
    raiseUnless quiet cls sub d (s.setMeter m) = (raiseUnless quiet cls sub d s).setMeter m := by
  unfold raiseUnless
  split
  · rfl
  · exact raise_setMeter ..

theorem raiseUnless_setCoiler (quiet : Bool) (cls : NoticeClass) (sub : Subject) (d : BitVec 16) (s : State) (k : Coiler) :
    raiseUnless quiet cls sub d (s.setCoiler k) = (raiseUnless quiet cls sub d s).setCoiler k := by
  unfold raiseUnless
  split
  · rfl
  · exact raise_setCoiler ..

/-! ## The wheel increment (R129, R134) -/

/-- A wheel increment ends a stall, with its notice where there was one. -/
def recovered (s : State) : State :=
  raiseUnless (decide (s.meter.stall = false ∨ s.settings.disable.getLsbD 7 = true)) .wheel (.station staK0) 0x506
    (s.setMeter { s.meter with stall := false, stallDist := 0 })

/-- The length of a wheel increment: to a coil of source WHEEL, to no other coil, and with no coil to the tally. -/
def wheelLength (d : Nat) (coil : Option Coil) (s : State) : State :=
  match coil with
  | some c => if c.source = .wheel then coilIncrement d s else s
  | none => addUnassigned d s

theorem recovered_frame (s : State) :
    NoticeFrame (s.setMeter { s.meter with stall := false, stallDist := 0 }) (recovered s) := raiseUnless_frame ..

theorem recovered_eq (s : State) :
    (if (s.setMeter { s.meter with stallDist := 0 }).meter.stall then takeRecovery (s.setMeter { s.meter with stallDist := 0 })
      else s.setMeter { s.meter with stallDist := 0 }) = recovered s := by
  unfold recovered
  cases h : s.meter.stall with
  | false =>
    rw [if_neg (by simp [h])]
    simp [raiseUnless, h]
  | true =>
    rw [if_pos (by simp [h])]
    unfold takeRecovery
    rw [warn_eq_raiseUnless]
    simp; rfl

/-- The slip window takes a wheel increment where it is open. -/
theorem slipWheel_eq (d : Nat) (s : State) :
    (if s.meter.slipOpen then s.setMeter { s.meter with winWheel := min Config.maxMm (s.meter.winWheel + d) } else s) =
      s.setMeter
        { s.meter with winWheel := if s.meter.slipOpen then min 4294967295 (s.meter.winWheel + d) else s.meter.winWheel } := by
  split <;> rfl

/-- `t` differs from `s` in the coiling unit, in moves of stations and in notices. -/
def CoilFrame (s t : State) : Prop := MoveFrame { s with coiler := t.coiler } t

theorem CoilFrame.setCoiler (s : State) (k : Coiler) : CoilFrame s (s.setCoiler k) := MoveFrame.refl _

theorem cutPoint_frame {s t : State} (id : ArborId) (h : t = { s with coiler := t.coiler }) : CoilFrame s (cutPoint id t) := by
  unfold CoilFrame
  cases ha : t.arbor id with
  | free =>
    have e : cutPoint id t = t := by unfold cutPoint; rw [ha]
    rw [e, ← h]; exact .refl t
  | busy ph c =>
    rw [cutPoint_eq ha, (cutCauses_move ..).coiler]
    have e : { s with coiler := (t.setArbor id (.busy .cutting c)).coiler } = t.setArbor id (.busy .cutting c) := by
      rw [h]; rfl
    rw [e]
    exact cutCauses_move ..

/-- A coil that does not wind, or whose lot is not there, takes the length alone. -/
theorem coilIncrement_alone {d : Nat} {s : State} {id : ArborId} {ph : ArborPhase} {c : Coil} (hr : s.receiving = some id)
    (ha : s.arbor id = .busy ph c) (h : ph.winds = false ∨ s.ropeOf c.lot = none) :
    coilIncrement d s = s.setArbor id (.busy ph { c with length := c.length.add d }) := by
  have hl : State.ropeOf (s.setArbor id (.busy ph { c with length := c.length.add d })) c.lot = s.ropeOf c.lot := rfl
  unfold coilIncrement
  simp only [hr, ha]
  rw [hl]
  rcases h with h | h
  · rw [h]
  · rw [h]; cases ph.winds <;> rfl

/-- A coil increment touches the coiling unit, and moves stations by the cut point alone. -/
theorem coilIncrement_frame (d : Nat) (s : State) : CoilFrame s (coilIncrement d s) := by
  cases hr : s.receiving with
  | none =>
    have e : coilIncrement d s = s := by unfold coilIncrement; rw [hr]
    rw [e]; exact MoveFrame.refl s
  | some id =>
    cases ha : s.arbor id with
    | free =>
      have e : coilIncrement d s = s := by unfold coilIncrement; rw [hr]; simp only [ha]
      rw [e]; exact MoveFrame.refl s
    | busy ph c =>
      cases hw : ph.winds with
      | false => rw [coilIncrement_alone hr ha (.inl hw)]; exact CoilFrame.setCoiler ..
      | true =>
        cases hl : s.ropeOf c.lot with
        | none => rw [coilIncrement_alone hr ha (.inr hl)]; exact CoilFrame.setCoiler ..
        | some r =>
          rw [coilIncrement_winds hr ha hw hl rfl rfl]
          split
          · split
            · exact cutPoint_frame _ rfl
            · exact CoilFrame.setCoiler ..
          · exact CoilFrame.setCoiler ..

theorem coilIncrement_meter (d : Nat) (s : State) : (coilIncrement d s).meter = s.meter := by
  rw [(coilIncrement_frame d s).1]

/-- A wheel increment of a pair with its lot: the recovery, then the rope to its place, then the slip window. -/
theorem meterWheel_eq (d : Nat) {s : State} (h : s.pairHolds = true) :
    meterWheel d s =
      (wheelLength d s.receivingCoil (recovered s)).setMeter
        { s.meter with
          stall := false, stallDist := 0
          winWheel := if s.meter.slipOpen then min 4294967295 (s.meter.winWheel + d) else s.meter.winWheel } := by
  have hr := recovered_frame s
  have hcoil : (recovered s).receivingCoil = s.receivingCoil := by
    unfold State.receivingCoil State.receiving State.arbor
    rw [hr.coiler]; rfl
  have hu : (wheelLength d s.receivingCoil (recovered s)).meter = { s.meter with stall := false, stallDist := 0 } := by
    have hm : (recovered s).meter = { s.meter with stall := false, stallDist := 0 } := hr.meter
    unfold wheelLength
    split
    · split
      · rw [coilIncrement_meter, hm]
      · exact hm
    · exact hm
  unfold meterWheel
  rw [if_pos h]
  extract_lets m s1 s2 s3
  have h2 : s2 = recovered s := recovered_eq s
  have h3 : s3 = wheelLength d s.receivingCoil (recovered s) := by unfold s3; rw [h2, hcoil]; rfl
  rw [slipWheel_eq, h3, hu]

end Sys2Proof.Laws

namespace Sys2Proof.Proofs

open Sys2Proof.Machine Sys2Proof.Safety Sys2Proof.Laws

/-- Settles O23: the recovery first, then where the length goes, then the slip window. -/
theorem wheelEdgesMeterTheRope : Obligations.WheelEdgesMeterTheRope := by
  intro s d m restored win m' k
  have hrest : ∀ u, restored u =
      raiseUnless (decide (m.stall = false ∨ s.settings.disable.getLsbD 7 = true)) .wheel (.station staK0) 0x506 u := by
    intro u; unfold restored raiseUnless; simp
  refine ⟨fun hl => ?_, fun rope hl hr => ?_⟩
  · unfold wheelEdge meterWheel
    simp [hl, State.pairHolds]
  · have hsome := Option.isSome_iff_ne_none.mpr hl
    have hpair : (s.setCoiler k).pairHolds = true := by
      show (s.rope.isSome && (s.station staK0).lot.isSome) = true
      rw [hr, hsome]; rfl
    have hedge : wheelEdge s = meterWheel d (s.setCoiler k) := congrArg (meterWheel d) (if_pos hsome)
    have hcoil : (s.setCoiler k).receivingCoil = s.receivingCoil := rfl
    have hrec : recovered (s.setCoiler k) = restored ((s.setCoiler k).setMeter { m with stall := false, stallDist := 0 }) :=
      (hrest _).symm
    rw [hedge, meterWheel_eq d hpair, hcoil]
    refine ⟨fun hn => ?_, fun id ph c hi ha hc => ?_, fun id ph c hi ha hc hst => ?_⟩
    · rw [receivingCoil_none hn, wheelLength, addUnassigned, (recovered_frame _).coiler, hrec, hrest, hrest,
        ← raiseUnless_setCoiler, ← raiseUnless_setMeter]
      rfl
    · rw [receivingCoil_of_busy hi ha, wheelLength, if_neg hc, hrec, hrest, hrest, ← raiseUnless_setMeter]
      rfl
    · have still : recovered (s.setCoiler k) = { s with meter := { m with stallDist := 0 }, coiler := k } := by
        rw [hrec]
        unfold restored
        rw [if_pos (.inl hst), ← hst]
        rfl
      rw [receivingCoil_of_busy hi ha, wheelLength, if_pos hc, still]
      rfl

end Sys2Proof.Proofs
end

section
/-! The end of a fill and its counts (R78, R44), the expiry of stillness (O15), and winding (O20). -/

namespace Sys2Proof.Laws

open Sys2Proof.Machine Sys2Proof.Safety

/-! ## Bobbins written back -/

theorem putBobbin_eq (b : Bobbin) (s : State) : putBobbin b s = { s with bobbins := withBobbin b s.bobbins } := rfl

theorem bobbinAt_congr {s t : State} (h : t.bobbins = s.bobbins) (pl : Place) : t.bobbinAt pl = s.bobbinAt pl := by
  unfold State.bobbinAt; rw [h]

/-- The bobbin of a place, its record written with its id and place kept, is still the bobbin of that place. -/
theorem bobbinAt_withBobbin {s t : State} {pl : Place} {b b' : Bobbin} (h : s.bobbinAt pl = some b) (hid : b'.id = b.id)
    (hpl : b'.place = b.place) (ht : t.bobbins = withBobbin b' s.bobbins) : t.bobbinAt pl = some b' := by
  unfold State.bobbinAt at *
  rw [ht]
  generalize s.bobbins = bs at h
  have hb : (b.place == some pl) = true := List.find?_some (p := fun x : Bobbin => x.place == some pl) h
  induction bs with
  | nil => cases h
  | cons x xs ih =>
    rw [withBobbin, List.map_cons, List.find?_cons]
    by_cases hx : x.id = b'.id
    · rw [if_pos hx, hpl, hb]
    · rw [if_neg hx]
      rw [List.find?_cons] at h
      cases hp : x.place == some pl with
      | true =>
        rw [hp] at h
        cases h
        exact absurd hid.symm hx
      | false =>
        rw [hp] at h
        exact ih h

theorem withBobbin_withBobbin {b b' : Bobbin} (h : b'.id = b.id) (bs : List Bobbin) :
    withBobbin b' (withBobbin b bs) = withBobbin b' bs := by
  unfold withBobbin
  rw [List.map_map]
  refine List.map_congr_left fun x _ => ?_
  dsimp only [Function.comp]
  by_cases hx : x.id = b.id
  · simp [hx, h]
  · simp [hx]

/-! ## Counts of a lot (R27, R44) -/

/-- A bobbin or coil of `mm` counted on the lot `l` of slot `k`, which completes it where it was the last (R44). -/
def counted (k : Slot) (l : Lot) (mm : Nat) (s : State) : State :=
  let l' := { l with produced := min 4294967295 (l.produced + mm), done := l.done + 1 }
  if (l.state = .active ∨ l.state = .held) ∧ l.done + 1 = l.build.ordered then
    raiseOnAll l.stations .lotEnd (raise .lot (.lot l.number) 0x205 (s.setLot k (some { l' with state := .complete })))
  else s.setLot k (some l')

theorem counted_open {k : Slot} {l : Lot} {mm : Nat} {s : State}
    (h : l.done + 1 ≠ l.build.ordered ∨ (l.state ≠ .active ∧ l.state ≠ .held)) :
    counted k l mm s =
      s.setLot k (some { l with produced := min 4294967295 (l.produced + mm), done := l.done + 1 }) := by
  refine if_neg ?_
  rintro ⟨h1, h2⟩
  rcases h with h | h
  · exact h h2
  · exact h1.elim h.1 h.2

theorem counted_complete {k : Slot} {l : Lot} {mm : Nat} {s : State} (h : l.done + 1 = l.build.ordered)
    (h' : l.state = .active ∨ l.state = .held) :
    counted k l mm s =
      raiseOnAll l.stations .lotEnd (raise .lot (.lot l.number) 0x205 (s.setLot k (some
        { l with produced := min 4294967295 (l.produced + mm), done := l.done + 1, state := .complete }))) :=
  if_pos ⟨h', h⟩

/-- A done increment and its completion check, on the lot's slot. -/
theorem countDone_eq {s : State} {k : Slot} {l : Lot} (h : HasLot s k l) :
    countDone l.number s =
      if (l.state = .active ∨ l.state = .held) ∧ l.done + 1 = l.build.ordered then
        raiseOnAll l.stations .lotEnd
          (raise .lot (.lot l.number) 0x205 (s.setLot k (some { l with done := l.done + 1, state := .complete })))
      else s.setLot k (some { l with done := l.done + 1 }) := by
  have h' : HasLot (s.setLot k (some { l with done := l.done + 1 })) k { l with done := l.done + 1 } := hasLot_setLot h rfl
  have moved : moveLot l.number .complete (s.setLot k (some { l with done := l.done + 1 })) =
      raise .lot (.lot l.number) 0x205 (s.setLot k (some { l with done := l.done + 1, state := .complete })) := by
    have e := modLot_of_hasLot h' fun l => { l with state := .complete }
    unfold moveLot
    rw [show l.number = ({ l with done := l.done + 1 } : Lot).number from rfl, e, setLot_setLot]
    rfl
  unfold countDone checkComplete
  rw [modLot_of_hasLot h, show l.number = ({ l with done := l.done + 1 } : Lot).number from rfl, hasLot_lot? h']
  dsimp only
  rw [moved]

theorem countDone_addProduced {s : State} {k : Slot} {l : Lot} (h : HasLot s k l) (mm : Nat) :
    countDone l.number (addProduced l.number mm s) = counted k l mm s := by
  have h' : HasLot (s.setLot k (some { l with produced := min Config.maxMm (l.produced + mm) })) k
      { l with produced := min Config.maxMm (l.produced + mm) } := hasLot_setLot h rfl
  have e := countDone_eq h'
  rw [setLot_setLot, setLot_setLot] at e
  unfold addProduced
  rw [modLot_of_hasLot h]
  exact e

/-! ## The end of a fill (R78) -/

theorem stranderOf_twiSta {t : Twi} {k : Strander} (h : k.val = t.val) : stranderOf (twiSta t) = some k := by
  unfold stranderOf twiSta
  rw [dif_pos (by show t.val < 4; omega)]
  exact congrArg some (Fin.ext h.symm)

theorem strSta_eq_twiSta {t : Twi} {k : Strander} (h : k.val = t.val) : strSta k = twiSta t := Fin.ext h

theorem endFill_idle {k : Strander} {s : State}
    (h : (s.station (strSta k)).state ≠ .halted ∨ s.has (strSta k) .bobbinFull = false) : endFill k s = s := by
  unfold endFill
  rw [if_neg]
  rintro ⟨h1, h2⟩
  rcases h with h | h
  · exact h h1
  · rw [h] at h2; cases h2

/-- The bobbin taken off a strander, full (R78). -/
def takenOff (b : Bobbin) : Bobbin := { b with state := .full, place := none, fillPoint := none }

theorem endFill_eq {k : Strander} {s : State} {b : Bobbin} {slot : Slot} {l : Lot} (hs : (s.station (strSta k)).state = .halted)
    (hf : s.has (strSta k) .bobbinFull = true) (hb : s.bobbinAt (.winding k) = some b) (hw : b.state = .winding)
    (hl : b.lot = some l.number) (h : HasLot s slot l) :
    endFill k s = counted slot l b.wound.mm { s with bobbins := withBobbin (takenOff b) s.bobbins } := by
  have h' : HasLot { s with bobbins := withBobbin (takenOff b) s.bobbins } slot l := HasLot.congr h rfl
  unfold endFill
  rw [if_pos ⟨hs, hf⟩, hb]
  dsimp only
  rw [if_pos hw]
  split
  · next n hn =>
    rw [hl] at hn
    cases hn
    exact countDone_addProduced (s := { s with bobbins := withBobbin (takenOff b) s.bobbins }) h' _
  · next hn => rw [hl] at hn; cases hn

/-! ## Raises that do not start a run-down -/

/-- A station's record with a cause added (R2, R12). -/
def withCause (c : Cause) (s : State) (r : Station) : Station :=
  { r with
    causes := r.causes ||| BitVec.twoPow 12 c.idx
    retryUntilMs := if c = .laySevere then s.settings.retryWait.ms.map (s.nowMs + ·) else r.retryUntilMs }

/-- Off RUN_UP and STEADY the raise of a cause is its FAULT notice and a write of the station's record. -/
theorem raiseOne_eq_writeStation {i : Sta} {c : Cause} {s : State} (ha : c.admissible (kindOf i) = true)
    (hn : s.has i c = false) (hs : (s.station i).state ≠ .runUp) (hs' : (s.station i).state ≠ .steady) :
    raiseOne i c s =
      writeStation i { withCause c s (s.station i) with state := afterRaise i (s.station i).state }
        (raise .fault (.station i) c.word s) := by
  have hadd : raise .fault (.station i) c.word (addCause i c s) =
      (raise .fault (.station i) c.word s).setStation i (withCause c s (s.station i)) := by
    refine raise_setStation ?_ _ _ _
    rfl
  have hst : ((raise .fault (.station i) c.word s).station i).state = (s.station i).state := by
    rw [(raise_frame ..).station]
  unfold raiseOne
  rw [if_neg (by simp [ha, hn]), hadd]
  generalize raise .fault (.station i) c.word s = u at hst
  have hw : (withCause c s (s.station i)).state = (s.station i).state := rfl
  generalize withCause c s (s.station i) = r' at hw
  generalize (s.station i).state = st at *
  have stays : u.setStation i r' = writeStation i { r' with state := st } u := by
    rw [writeStation, if_pos hst.symm, ← hw]
  unfold haltMove
  rw [State.setStation_station_self, hw]
  cases st
  case idle | standby | knotting | active => exact moveTo_setStation _ (hw.trans hst.symm)
  case runUp => exact absurd rfl hs
  case steady => exact absurd rfl hs'
  case runDown | halted | rowHold => exact stays

/-! ## The station becomes still (R69, R70) -/

theorem becomeStill_running {t : Twi} {s : State}
    (h : (s.station (twiSta t)).state = .runUp ∨ (s.station (twiSta t)).state = .steady) :
    becomeStill t s =
      raise .state (.station (twiSta t)) 0x109
        ((s.setTwist t { s.twist t with lay := (s.twist t).lay.discard, runUp := (s.twist t).runUp.stop s.nowMs }).setStation
          (twiSta t) { s.station (twiSta t) with state := .standby }) := by
  have moved (u : State) (hu : u.station (twiSta t) = s.station (twiSta t)) :
      changeState (twiSta t) .standby wordStoppedByMachine u =
        raise .state (.station (twiSta t)) 0x109 (u.setStation (twiSta t) { s.station (twiSta t) with state := .standby }) := by
    rw [← hu]
    refine if_neg fun e => ?_
    rw [hu] at e
    rcases h with h | h <;> rw [h] at e <;> cases e
  unfold becomeStill
  dsimp only
  rcases h with h | h <;> rw [h]
  · exact moved _ rfl
  · exact moved _ rfl

theorem becomeStill_runDown {t : Twi} {s : State} (h : (s.station (twiSta t)).state = .runDown) :
    becomeStill t s =
      endFillOf t (writeStation (twiSta t)
        { s.station (twiSta t) with state := if (s.station (twiSta t)).causes = 0 then .standby else .halted }
        (s.setTwist t { s.twist t with runDown := (s.twist t).runDown.stop s.nowMs })) := by
  unfold becomeStill
  dsimp only
  rw [h]
  dsimp only
  rw [moveTo_eq_writeStation]
  rfl

theorem becomeStill_resting {t : Twi} {s : State}
    (h : (s.station (twiSta t)).state = .idle ∨ (s.station (twiSta t)).state = .standby ∨
      (s.station (twiSta t)).state = .halted) : becomeStill t s = s := by
  unfold becomeStill
  dsimp only
  rcases h with h | h | h <;> rw [h]

theorem endFillOf_strander {t : Twi} {k : Strander} (h : k.val = t.val) (s : State) : endFillOf t s = endFill k s := by
  unfold endFillOf
  rw [stranderOf_twiSta h]

theorem stranderOf_twiSta_eq_some : ∀ {t : Twi} {k : Strander}, stranderOf (twiSta t) = some k → strSta k = twiSta t ∧ t ≠ 4 := by
  decide

theorem endFillOf_idle {t : Twi} {s : State} (h : s.has (twiSta t) .bobbinFull = false ∨ t = 4) : endFillOf t s = s := by
  unfold endFillOf
  split
  · next k hk =>
    obtain ⟨hi, h4⟩ := stranderOf_twiSta_eq_some hk
    exact endFill_idle (.inr (by rw [hi]; exact h.resolve_right h4))
  · rfl

end Sys2Proof.Laws

namespace Sys2Proof.Proofs

open Sys2Proof.Machine Sys2Proof.Safety Sys2Proof.Laws

/-- Settles O15: the state the expiry finds, and the end of a fill by its counts. -/
theorem stillnessEndsTheRun : Obligations.StillnessEndsTheRun := by
  intro t s start hp hst i r now w ended
  have hexec : ∀ u, becomeStill t (now.setTwist t w) = u → exec (.stillnessExpiry t) s = .next u := by
    intro u hu
    refine next_of_running hp ?_
    simp only [hst]
    exact hu
  have hw : (now.setTwist t w).twist t = w := State.setTwist_twist_self ..
  refine ⟨fun hr => hexec _ ?_, fun hr => ?_, fun hr => hexec _ (becomeStill_resting hr)⟩
  · have e := becomeStill_running (s := now.setTwist t w) hr
    rw [hw, setTwist_setTwist] at e
    exact e
  have hend : becomeStill t (now.setTwist t w) = endFillOf t ended := by
    have e := becomeStill_runDown (s := now.setTwist t w) hr
    rw [hw, setTwist_setTwist] at e
    exact e
  have hsta : ended.station i = { r with state := if r.causes = 0 then .standby else .halted } := writeStation_station ..
  have hfr : NoticeFrame _ ended := writeStation_frame ..
  refine ⟨fun hn => hexec _ (hend.trans (endFillOf_idle ?_)), fun k b slot l hk hf hb hbw hbl hl => ?_⟩
  · refine hn.imp_left fun hn => ?_
    rw [State.has, hsta]; exact hn
  · intro off l'
    have hf' : ended.has (strSta k) .bobbinFull = true := by
      rw [strSta_eq_twiSta hk, State.has, hsta]; exact hf
    have hh : (ended.station (strSta k)).state = .halted := by
      rw [strSta_eq_twiSta hk, hsta]; exact if_neg (ne_zero_of_hasCause hf)
    have hfill : becomeStill t (now.setTwist t w) = counted slot l b.wound.mm off := by
      rw [hend, endFillOf_strander hk,
        endFill_eq hh hf' ((bobbinAt_congr hfr.bobbins _).trans hb) hbw hbl (HasLot.congr hl hfr.lots), hfr.bobbins]
      rfl
    exact ⟨fun h => hexec _ (hfill.trans (counted_open h)), fun h h' => hexec _ (hfill.trans (counted_complete h h'))⟩

end Sys2Proof.Proofs
end

section
/-! Capstan edges of a strander (O20). -/

namespace Sys2Proof.Laws

open Sys2Proof.Machine Sys2Proof.Safety

/-! ## The accumulator and the open window (R20, R49) -/

/-- A capstan increment in the accumulator and the open window of a twisting station. -/
def capCounted (t : Twi) (d : Nat) (s : State) : State :=
  s.setTwist t
    { s.twist t with
      acc := if (s.station (twiSta t)).lot.isSome then (s.twist t).acc.add d else (s.twist t).acc
      lay := { (s.twist t).lay with
        dl := if (s.twist t).lay.isOpen then min 4294967295 ((s.twist t).lay.dl + d) else (s.twist t).lay.dl } }

theorem layCap_accumulate (t : Twi) (d : Nat) (s : State) : layCap t d (accumulate t d s) = capCounted t d s := by
  have acc : accumulate t d s = s.setTwist t
      { s.twist t with acc := if (s.station (twiSta t)).lot.isSome then (s.twist t).acc.add d else (s.twist t).acc } := by
    unfold accumulate
    split
    · rfl
    · exact (State.setTwist_twist_id ..).symm
  have lay (u : State) : layCap t d u = u.setTwist t
      { u.twist t with lay := { (u.twist t).lay with
        dl := if (u.twist t).lay.isOpen then min 4294967295 ((u.twist t).lay.dl + d) else (u.twist t).lay.dl } } := by
    unfold layCap modLay
    split
    · rfl
    · exact (State.setTwist_twist_id ..).symm
  rw [acc, lay, State.setTwist_twist_self, setTwist_setTwist]
  rfl

/-! ## Winding (R77, R79, R87) -/

/-- The bobbin's record after `d` µm are wound onto it, up to its capacity. -/
def woundBy (d : Nat) (b : Bobbin) : Bobbin :=
  { b with
    wound := if decide (b.capacity * 1000 < b.wound.total + d) then ⟨b.capacity, 0⟩ else .ofUm (b.wound.total + d)
    overwind := b.overwind || decide (b.capacity * 1000 < b.wound.total + d) }

/-- The winding of an increment: the bobbin's record, and OVERWIND at the first that is clamped. -/
def windTold (d : Nat) (b : Bobbin) (s : State) : State :=
  let wound := { s with bobbins := withBobbin (woundBy d b) s.bobbins }
  if decide (b.capacity * 1000 < b.wound.total + d) && !b.overwind && !s.settings.disable.getLsbD 4 then
    raise .bobbin (.bobbin b.id) 0x503 wound
  else wound

theorem windTold_frame (d : Nat) (b : Bobbin) (s : State) :
    NoticeFrame { s with bobbins := withBobbin (woundBy d b) s.bobbins } (windTold d b s) := by
  unfold windTold
  extract_lets wound
  split
  · exact raise_frame ..
  · exact .refl _

theorem windBobbin_eq {k : Strander} {d fill : Nat} {s : State} {b : Bobbin} (hb : s.bobbinAt (.winding k) = some b)
    (hw : b.state = .winding) (hf : b.fillPoint = some fill) :
    windBobbin k d s =
      if fill ≤ (woundBy d b).wound.mm then endFill k (raiseCause (strSta k) .bobbinFull (windTold d b s))
      else windTold d b s := by
  have told : (if decide (b.capacity * 1000 < b.wound.total + d) && !b.overwind then
        warn .overwind .bobbin (.bobbin b.id) wordOverwind (putBobbin (woundBy d b) s)
      else putBobbin (woundBy d b) s) = windTold d b s := by
    unfold windTold
    cases decide (b.capacity * 1000 < b.wound.total + d) && !b.overwind with
    | false => rfl
    | true =>
      rw [if_pos rfl, warn_eq_raiseUnless, raiseUnless, Bool.true_and]
      cases hq : s.settings.disable.getLsbD 4 with
      | false => exact if_neg (Bool.not_eq_true _ ▸ hq)
      | true => exact if_pos hq
  unfold windBobbin
  split
  · next b' hb' =>
    rw [hb] at hb'
    cases hb'
    rw [if_pos hw]
    extract_lets sum clamped wound s1 s2 full
    have hs2 : s2 = windTold d b s := told
    have hfull : full = decide (fill ≤ (woundBy d b).wound.mm) := by unfold full; rw [hf]; rfl
    rw [hs2, hfull]
    simp only [decide_eq_true_eq]
  · next hb' => rw [hb] at hb'; cases hb'

theorem windBobbin_none {k : Strander} {d : Nat} {s : State} (h : s.bobbinAt (.winding k) = none) : windBobbin k d s = s := by
  unfold windBobbin; rw [h]

theorem capEdge_strander {k : Strander} {t : Twi} {s : State} (h : k.val = t.val) :
    capEdge t s = windBobbin k s.settings.capstan[t] (capCounted t s.settings.capstan[t] s) := by
  unfold capEdge useCap
  dsimp only
  rw [layCap_accumulate, stranderOf_twiSta h]

/-! ## The run-down that BOBBIN_FULL begins (R5, R68) -/

theorem enterRunDown_twist (t : Twi) (s : State) :
    (enterRunDown t s).twist t =
      { s.twist t with
        lay := (s.twist t).lay.discard, stillMs := some s.nowMs, runUp := (s.twist t).runUp.stop s.nowMs
        runDown := .startAt s.nowMs s.settings.scale } := by
  unfold enterRunDown
  rw [moveTo_twist]
  exact State.setTwist_twist_self ..

/-- A cause raised on a running twisting station begins its run-down, with the window discarded (R51, R68). -/
theorem raiseOne_twist {t : Twi} {c : Cause} {s : State} (ha : c.admissible (kindOf (twiSta t)) = true)
    (hn : s.has (twiSta t) c = false) (hs : (s.station (twiSta t)).state = .runUp ∨ (s.station (twiSta t)).state = .steady) :
    (raiseOne (twiSta t) c s).twist t =
      { s.twist t with
        lay := (s.twist t).lay.discard, stillMs := some s.nowMs, runUp := (s.twist t).runUp.stop s.nowMs
        runDown := .startAt s.nowMs s.settings.scale } := by
  have hframe := raise_frame .fault (.station (twiSta t)) c.word (addCause (twiSta t) c s)
  have hst : ((raise .fault (.station (twiSta t)) c.word (addCause (twiSta t) c s)).station (twiSta t)).state =
      (s.station (twiSta t)).state := by
    rw [hframe.station]; unfold addCause; simp
  have htw : (raise .fault (.station (twiSta t)) c.word (addCause (twiSta t) c s)).twist t = s.twist t := hframe.twist t
  have hset : (raise .fault (.station (twiSta t)) c.word (addCause (twiSta t) c s)).settings = s.settings := hframe.settings
  have hnow : (raise .fault (.station (twiSta t)) c.word (addCause (twiSta t) c s)).nowMs = s.nowMs :=
    congrArg (· / 1000) hframe.now
  unfold raiseOne
  rw [if_neg (by simp [ha, hn])]
  generalize raise .fault (.station (twiSta t)) c.word (addCause (twiSta t) c s) = u at *
  have run : haltMove (twiSta t) u = enterRunDown t u := by
    unfold haltMove
    rw [hst, twistOf_twiSta]
    rcases hs with h | h <;> rw [h]
  rw [run, enterRunDown_twist, htw, hset, hnow]

theorem raiseOne_twist_lay {t : Twi} {c : Cause} {s : State} (ha : c.admissible (kindOf (twiSta t)) = true)
    (hn : s.has (twiSta t) c = false) (hs : (s.station (twiSta t)).state = .runUp ∨ (s.station (twiSta t)).state = .steady) :
    ((raiseOne (twiSta t) c s).twist t).lay = (s.twist t).lay.discard := by
  rw [raiseOne_twist ha hn hs]

/-- In RUN_DOWN the raise of a cause is the record's change and the FAULT notice. -/
theorem raiseOne_runDown {i : Sta} {c : Cause} {s : State} (ha : c.admissible (kindOf i) = true) (hn : s.has i c = false)
    (hs : (s.station i).state = .runDown) :
    raiseOne i c s = raise .fault (.station i) c.word (s.setStation i (withCause c s (s.station i))) := by
  have hst : ((raise .fault (.station i) c.word s).station i).state = .runDown := by rw [(raise_frame ..).station, hs]
  have e := raiseOne_eq_writeStation ha hn (by rw [hs]; decide) (by rw [hs]; decide)
  rw [hs, show afterRaise i .runDown = .runDown from rfl,
    ← Station.eta_state (show (withCause c s (s.station i)).state = .runDown from hs), writeStation,
    if_pos (show (withCause c s (s.station i)).state = _ from hs.trans hst.symm)] at e
  refine e.trans (Eq.symm (raise_setStation ?_ _ _ _))
  rfl

/-- At rest the raise of a cause halts the station (R6). -/
theorem raiseOne_rest {i : Sta} {c : Cause} {s : State} (ha : c.admissible (kindOf i) = true) (hn : s.has i c = false)
    (hs : (s.station i).state = .standby ∨ (s.station i).state = .halted) :
    raiseOne i c s =
      writeStation i { withCause c s (s.station i) with state := .halted } (raise .fault (.station i) c.word s) := by
  have hgo : afterRaise i (s.station i).state = .halted := by rcases hs with hs | hs <;> rw [hs] <;> rfl
  have e := raiseOne_eq_writeStation ha hn (by rcases hs with hs | hs <;> rw [hs] <;> decide)
    (by rcases hs with hs | hs <;> rw [hs] <;> decide)
  rw [hgo] at e
  exact e

/-- BOBBIN_FULL raised on a strander at rest ends the fill in the same event (R77, R78). -/
theorem endFill_raised {k : Strander} {s : State} {b : Bobbin} {slot : Slot} {l : Lot}
    (hn : s.has (strSta k) .bobbinFull = false)
    (hs : (s.station (strSta k)).state = .standby ∨ (s.station (strSta k)).state = .halted)
    (hb : s.bobbinAt (.winding k) = some b) (hw : b.state = .winding) (hbl : b.lot = some l.number) (hl : HasLot s slot l) :
    endFill k (raiseOne (strSta k) .bobbinFull s) =
      counted slot l b.wound.mm
        { writeStation (strSta k) { withCause .bobbinFull s (s.station (strSta k)) with state := .halted }
            (raise .fault (.station (strSta k)) 0x305 s) with
          bobbins := withBobbin (takenOff b) s.bobbins } := by
  have hadm : Cause.bobbinFull.admissible (kindOf (strSta k)) = true := by clear * -; revert k; decide
  have hown := raiseOne_station (strSta k) .bobbinFull s hadm hn
  have hmove := raiseOne_move (strSta k) .bobbinFull s
  have hhalted : ((raiseOne (strSta k) .bobbinFull s).station (strSta k)).state = .halted := by
    rw [hown]; rcases hs with hs | hs <;> rw [hs] <;> rfl
  have hhas : (raiseOne (strSta k) .bobbinFull s).has (strSta k) .bobbinFull = true := by
    rw [State.has, hown]
    exact (hasCause_add (s.station (strSta k)).causes .bobbinFull .bobbinFull).trans (by simp)
  rw [endFill_eq hhalted hhas ((bobbinAt_congr hmove.bobbins _).trans hb) hw hbl (HasLot.congr hl hmove.lots), hmove.bobbins,
    raiseOne_rest hadm hn hs]
  rfl

end Sys2Proof.Laws

namespace Sys2Proof.Proofs

open Sys2Proof.Machine Sys2Proof.Safety Sys2Proof.Laws

/-- Settles O20: the counts, the winding, and BOBBIN_FULL by the state it finds. -/
theorem stranderCapEdgesWind : Obligations.StranderCapEdgesWind := by
  intro k t s hk i r d w c
  have hc : capCounted t d s = c := rfl
  have hi : strSta k = i := strSta_eq_twiSta hk.symm
  have hedge : capEdge t s = windBobbin k d c := capEdge_strander hk.symm
  refine ⟨fun hb => hedge.trans (windBobbin_none hb), fun b fill hb hw hf => ?_⟩
  intro clamped grown b' wound told filled
  have htold : windTold d b c = told := rfl
  have hfr : NoticeFrame wound told := windTold_frame d b c
  have hfull : Cause.bobbinFull.admissible (kindOf i) = true ∧ i ≠ staK0 := by rw [← hi]; clear * -; revert k; decide
  obtain ⟨hadm, hK⟩ := hfull
  have hwind := hedge.trans (windBobbin_eq (k := k) (d := d) (s := c) hb hw hf)
  rw [htold, hi, raiseCause_eq_raiseOne _ _ _ hK] at hwind
  clear_value told
  have hsta : told.station i = r := hfr.station i
  have hhas : told.has i .bobbinFull = hasCause r.causes .bobbinFull := by unfold State.has; rw [hsta]
  have hrec : withCause .bobbinFull told (told.station i) = filled := by rw [hsta]; rfl
  have hfill (h : fill ≤ grown.mm) : capEdge t s = endFill k (raiseOne i .bobbinFull told) := hwind.trans (if_pos h)
  have running (h : fill ≤ grown.mm) (hs : ((raiseOne i .bobbinFull told).station i).state ≠ .halted) :
      capEdge t s = raiseOne i .bobbinFull told := by
    rw [hfill h]; exact endFill_idle (.inl (by rw [hi]; exact hs))
  refine ⟨fun h => hwind.trans (if_neg (Nat.not_le.mpr h)), fun h hs => ⟨fun hh => ?_, fun hh hd => ?_, fun hh hd => ?_⟩,
    fun h hs hh slot l hbl hl => ?_⟩
  · have e : raiseOne i .bobbinFull told = told := if_pos (.inr (hhas.trans hh))
    rw [running h, e]
    rw [e, hsta]
    rcases hs with hs | hs | hs <;> rw [hs] <;> decide
  · have e := raiseOne_runDown hadm (hhas.trans hh) (by rw [hsta]; exact hd)
    rw [hrec] at e
    rw [running h, e]
    · rfl
    · rw [e, (raise_frame ..).station, State.setStation_station_self]
      show r.state ≠ _
      rw [hd]; decide
  · have hs' : r.state = .runUp ∨ r.state = .steady := by tauto
    have hgo : afterRaise i r.state = .runDown := by
      rw [← hi]; rcases hs' with hs | hs <;> rw [hs] <;> clear * - <;> revert k <;> decide
    have hown := raiseOne_station i .bobbinFull told hadm (hhas.trans hh)
    rw [hsta, hgo] at hown
    have hmove := raiseOne_move i .bobbinFull told
    have hoff := raiseOne_offers i .bobbinFull told hadm (hhas.trans hh)
    have hlay := raiseOne_twist_lay (t := t) (c := .bobbinFull) (s := told) hadm (hhas.trans hh) (by rw [hsta]; exact hs')
    have hne := fun j hj => raiseOne_station_ne i j .bobbinFull told hj
    intro u
    have hu : u = raiseOne i .bobbinFull told := running h (by rw [hown]; simp)
    rw [← hu] at hown hmove hoff hlay hne
    have hbob : u.bobbins = withBobbin b' s.bobbins := hmove.bobbins.trans hfr.bobbins
    refine ⟨hu.trans (raiseCause_eq_raiseOne _ _ _ hK).symm, ?_, hbob, hown, fun j hj => (hne j hj).trans (hfr.station j), ?_,
      ?_, ?_⟩
    · have e := hmove.1
      rw [hfr.1] at e
      rw [hbob]
      exact e
    · rw [hmove.2.2.2 t, hfr.twist t]; rfl
    · rw [hlay, hfr.twist t]; rfl
    · rw [hoff.queues, hsta, haltTold, moveTold, hgo, if_neg (by rcases hs' with hs | hs <;> rw [hs] <;> decide)]
      rfl
  · intro rest off l'
    have hat : told.bobbinAt (.winding k) = some b' := bobbinAt_withBobbin hb rfl rfl hfr.bobbins
    have hall : capEdge t s = counted slot l grown.mm off := by
      rw [hfill h]
      rw [← hi] at hhas hsta ⊢
      rw [endFill_raised (hhas.trans hh) (by rw [hsta]; exact hs) hat hw hbl (HasLot.congr hl hfr.lots), hfr.bobbins,
        withBobbin_withBobbin (b := b') (b' := takenOff b') rfl, hi, hrec]
      rfl
    exact ⟨fun h => hall.trans (counted_open h), fun h h' => hall.trans (counted_complete h h')⟩

end Sys2Proof.Proofs
end

section
/-! Capstan edges of C0 and the take-up draw (O22). -/

namespace Sys2Proof.Laws

open Sys2Proof.Machine Sys2Proof.Safety

/-! ## Lengths of µm -/

theorem Len.ofUm_total (u : Nat) : (Len.ofUm u).total = u := by
  unfold Len.ofUm Len.total
  dsimp only
  omega

/-! ## A draw on one place (R93, R95) -/

/-- The µm a place gives of a draw of `x`: what its MOUNTED bobbin has left, at most. -/
def given (x : Nat) (o : Option Bobbin) : Nat :=
  match o with
  | some b => if b.state = .mounted then min x (b.wound.total - b.drawn.total) else 0
  | none => 0

/-- A MOUNTED bobbin after a draw of `x` µm, with the low mark at `low` mm. -/
def drawnBy (x low : Nat) (b : Bobbin) : Bobbin :=
  let taken := min x (b.wound.total - b.drawn.total)
  let left := b.wound.total - b.drawn.total - taken
  { b with
    drawn := .ofUm (b.drawn.total + taken)
    state := if left = 0 then .runOut else .mounted
    low := b.low || decide (left < low * 1000) }

theorem charge_idle {i : Sta} {pl : Place} {s : State} (x : Nat)
    (h : ∀ b, s.bobbinAt pl = some b → b.state ≠ .mounted) : charge i pl x s = (s, x) := by
  unfold charge
  split
  · next b hb => exact if_neg (h b hb)
  · rfl

/-- A draw on a MOUNTED bobbin: its record, then the notices of its low mark and of its run-out. -/
theorem charge_mounted {i : Sta} {pl : Place} {s : State} {b : Bobbin} (x : Nat) (hb : s.bobbinAt pl = some b)
    (hm : b.state = .mounted) :
    ∃ u, NoticeFrame { s with bobbins := withBobbin (drawnBy x s.settings.lowMark b) s.bobbins } u ∧
      charge i pl x s =
        (if (drawnBy x s.settings.lowMark b).state = .runOut then raise .feed (.station i) pl.word (raiseCause i .feedOut u) else u,
          x - given x (some b)) := by
  unfold charge
  split
  · next b' hb' =>
    rw [hb] at hb'
    cases hb'
    rw [if_pos hm]
    extract_lets take b1 out low s1 s2 s3
    have hleft : b1.remaining = b.wound.total - b.drawn.total - min x (b.wound.total - b.drawn.total) := by
      unfold b1 take Bobbin.remaining
      dsimp only
      rw [Len.ofUm_total]
      omega
    have hstate : (if out then BobbinState.runOut else .mounted) = (drawnBy x s.settings.lowMark b).state := by
      unfold out drawnBy
      rw [hleft]
      simp
    have hlow : (b.low || low) = (drawnBy x s.settings.lowMark b).low := by
      unfold low drawnBy
      rw [hleft]
      cases b.low <;> simp
    have hs1 : s1 = { s with bobbins := withBobbin (drawnBy x s.settings.lowMark b) s.bobbins } := by
      unfold s1
      rw [hstate, hlow]
      rfl
    have hout : out = true ↔ (drawnBy x s.settings.lowMark b).state = .runOut := by
      rw [← hstate]
      cases out <;> simp
    refine ⟨s2, ?_, ?_⟩
    · rw [← hs1]
      unfold s2
      split
      · exact warn_frame ..
      · exact .refl _
    · have hgiven : given x (some b) = take := if_pos hm
      rw [hgiven]
      unfold s3
      simp only [hout]
  · next hb' => rw [hb] at hb'; cases hb'

/-- `t` differs from `s` in the residues, the bobbins, in moves of stations and in notices. -/
def DrawFrame (s t : State) : Prop :=
  t = { s with
    residues := t.residues, bobbins := t.bobbins, stations := t.stations, twists := t.twists, ports := t.ports
    queues := t.queues }

theorem DrawFrame.refl (s : State) : DrawFrame s s := rfl

theorem DrawFrame.trans {s t u : State} (h : DrawFrame s t) (k : DrawFrame t u) : DrawFrame s u := by
  unfold DrawFrame at *
  rw [h] at k
  exact k

/-- A raise takes no cause away. -/
theorem raiseCause_has {i : Sta} {c c' : Cause} {s : State} (ha : c.admissible (kindOf i) = true) (h : s.has i c' = true) :
    hasCause ((raiseCause i c s).station i).causes c' = true := by
  rw [raiseCause_causes s ha]
  refine (hasCause_add (s.station i).causes c c').trans ?_
  rw [show hasCause (s.station i).causes c' = true from h, Bool.true_or]

theorem raiseCause_has_self {i : Sta} {c : Cause} {s : State} (ha : c.admissible (kindOf i) = true) :
    hasCause ((raiseCause i c s).station i).causes c = true := by
  rw [raiseCause_causes s ha]
  refine (hasCause_add (s.station i).causes c c).trans ?_
  rw [decide_eq_true rfl, Bool.or_true]

/-- What a draw on a place of C0 does: its shortfall, its frame, C0 alone, and no cause taken away. -/
theorem charge_closer (j : Pos) (x : Nat) (s : State) :
    (charge staC0 (.closer j) x s).2 = x - given x (s.bobbinAt (.closer j)) ∧
      MoveFrame { s with bobbins := (charge staC0 (.closer j) x s).1.bobbins } (charge staC0 (.closer j) x s).1 ∧
      (∀ i, i ≠ staC0 → (charge staC0 (.closer j) x s).1.station i = s.station i) ∧
      ∀ c, s.has staC0 c = true → (charge staC0 (.closer j) x s).1.has staC0 c = true := by
  by_cases hm : ∃ b, s.bobbinAt (.closer j) = some b ∧ b.state = .mounted
  · obtain ⟨b, hb, hm⟩ := hm
    obtain ⟨u, hu, e⟩ := charge_mounted (i := staC0) x hb hm
    have hmove : MoveFrame u (if (drawnBy x s.settings.lowMark b).state = .runOut then
        raise .feed (.station staC0) (Place.closer j).word (raiseCause staC0 .feedOut u) else u) := by
      split
      · exact (raiseCause_move ..).trans (.ofNotice (raise_frame ..))
      · exact .refl u
    rw [e, hb]
    refine ⟨rfl, ?_, fun i hi => ?_, fun c hc => ?_⟩
    · dsimp only
      rw [hmove.bobbins, hu.bobbins]
      exact (MoveFrame.ofNotice hu).trans hmove
    · dsimp only
      split
      · rw [(raise_frame ..).station, raiseCause_station_ne _ _ _ _ hi (.inl hi), hu.station]; rfl
      · rw [hu.station]; rfl
    · have hc' : u.has staC0 c = true := by unfold State.has; rw [hu.station]; exact hc
      dsimp only
      split
      · unfold State.has
        rw [(raise_frame ..).station]
        exact raiseCause_has rfl hc'
      · exact hc'
  · have h : ∀ b, s.bobbinAt (.closer j) = some b → b.state ≠ .mounted := fun b hb hn => hm ⟨b, hb, hn⟩
    rw [charge_idle x h]
    refine ⟨?_, .refl _, fun _ _ => rfl, fun _ hc => hc⟩
    unfold given
    split
    · next b hb => rw [if_neg (h b hb)]; rfl
    · rfl

/-- The bobbin table is in ascending id order (R81). -/
def IdsOk (s : State) : Prop := s.bobbins.Pairwise fun a b => a.id < b.id

theorem pairwise_withBobbin (b' : Bobbin) {bs : List Bobbin} (hbs : bs.Pairwise fun x y => x.id < y.id) :
    (withBobbin b' bs).Pairwise fun x y => x.id < y.id := by
  have same (x : Bobbin) : (if x.id = b'.id then b' else x).id = x.id := by
    split
    · next e => exact e.symm
    · rfl
  unfold withBobbin
  rw [List.pairwise_map]
  exact hbs.imp fun hlt => by rw [same, same]; exact hlt

/-- In such a table a record is its id's. -/
theorem eq_of_id_eq {bs : List Bobbin} (hbs : bs.Pairwise fun x y => x.id < y.id) {x y : Bobbin} (hx : x ∈ bs) (hy : y ∈ bs)
    (e : x.id = y.id) : x = y := by
  by_contra hne
  rcases List.pairwise_iff_getElem.mp hbs, List.getElem_of_mem hx, List.getElem_of_mem hy with ⟨hlt, ⟨m, hm, rfl⟩, ⟨n, hn, rfl⟩⟩
  rcases Nat.lt_trichotomy m n with h | rfl | h
  · have := hlt m n hm hn h; omega
  · exact hne rfl
  · have := hlt n m hn hm h; omega

theorem mem_withBobbin {b' x : Bobbin} {bs : List Bobbin} (hx : x ∈ bs) (h : x.id ≠ b'.id) : x ∈ withBobbin b' bs :=
  List.mem_map.mpr ⟨x, hx, if_neg h⟩

/-- The bobbin of another place than the one whose record is written. -/
theorem bobbinAt_withBobbin_ne {s t : State} {pl : Place} {b b' : Bobbin} (hs : IdsOk s) (hb : b ∈ s.bobbins)
    (hid : b'.id = b.id) (hpl : b'.place ≠ some pl) (hne : b.place ≠ some pl) (ht : t.bobbins = withBobbin b' s.bobbins) :
    t.bobbinAt pl = s.bobbinAt pl := by
  have off : (b.place == some pl) = false := by simpa using hne
  have off' : (b'.place == some pl) = false := by simpa using hpl
  have same : ∀ x ∈ s.bobbins, ((if x.id = b'.id then b' else x).place == some pl) = (x.place == some pl) ∧
      ((x.place == some pl) = true → (if x.id = b'.id then b' else x) = x) := by
    intro x hx
    split
    · next e =>
      rw [eq_of_id_eq hs hx hb (e.trans hid), off', off]
      exact ⟨rfl, fun h => by cases h⟩
    · exact ⟨rfl, fun _ => rfl⟩
  unfold State.bobbinAt
  rw [ht, withBobbin]
  generalize s.bobbins = bs at same
  clear ht
  induction bs with
  | nil => rfl
  | cons x xs ih =>
    obtain ⟨hx, hx'⟩ := same x List.mem_cons_self
    rw [List.map_cons, List.find?_cons, List.find?_cons, hx]
    split
    · next h => rw [hx' h]
    · exact ih fun y hy => same y (List.mem_cons_of_mem x hy)

theorem charge_closer_mounted {j : Pos} {s : State} {b : Bobbin} (x : Nat) (hb : s.bobbinAt (.closer j) = some b)
    (hm : b.state = .mounted) :
    (charge staC0 (.closer j) x s).1.bobbins = withBobbin (drawnBy x s.settings.lowMark b) s.bobbins ∧
      ((drawnBy x s.settings.lowMark b).state = .runOut → (charge staC0 (.closer j) x s).1.has staC0 .feedOut = true) := by
  obtain ⟨u, hu, e⟩ := charge_mounted (i := staC0) x hb hm
  rw [e]
  dsimp only
  split
  · refine ⟨(raise_frame ..).bobbins.trans ((raiseCause_move ..).bobbins.trans hu.bobbins), fun _ => ?_⟩
    unfold State.has
    rw [(raise_frame ..).station]
    exact raiseCause_has_self rfl
  · next h => exact ⟨hu.bobbins, fun h' => absurd h' h⟩

/-! ## The draw of one position -/

/-- The whole µm drawn at a position: the increment at the take-up, with the residue (R93). -/
def drawAt (d t : Nat) (s : State) (j : Pos) : Nat := (d * t + s.residues[j]) / 1000

/-- The state a position's draw starts from: its residue kept. -/
def withResidue (d t : Nat) (s : State) (j : Pos) : State :=
  { s with residues := s.residues.set j ((d * t + s.residues[j]) % 1000) }

def drawStep (d t : Nat) (s : State) (j : Pos) : State := (charge staC0 (.closer j) (drawAt d t s j) (withResidue d t s j)).1

/-- What a position's bobbin does not give of its draw (R95). -/
def shortAt (d t : Nat) (s : State) (j : Pos) : Nat := drawAt d t s j - given (drawAt d t s j) (s.bobbinAt (.closer j))

theorem drawPosition_eq (d t : Nat) (s : State) (a : Nat) (j : Pos) :
    drawPosition d t (s, a) j = (drawStep d t s j, a + shortAt d t s j) :=
  congrArg (fun x => (drawStep d t s j, a + x)) (charge_closer j (drawAt d t s j) (withResidue d t s j)).1

theorem drawStep_move (d t : Nat) (s : State) (j : Pos) :
    MoveFrame { withResidue d t s j with bobbins := (drawStep d t s j).bobbins } (drawStep d t s j) :=
  (charge_closer j (drawAt d t s j) (withResidue d t s j)).2.1

theorem drawStep_residues (d t : Nat) (s : State) (j : Pos) : (drawStep d t s j).residues = (withResidue d t s j).residues := by
  rw [(drawStep_move d t s j).1]

theorem drawStep_frame (d t : Nat) (s : State) (j : Pos) : DrawFrame s (drawStep d t s j) := by
  have h : DrawFrame (withResidue d t s j) (drawStep d t s j) := by
    have e := (drawStep_move d t s j).1
    unfold DrawFrame
    rw [drawStep_residues]
    exact e
  exact DrawFrame.trans (t := withResidue d t s j) rfl h

theorem drawStep_residue (d t : Nat) (s : State) (j k : Pos) :
    (drawStep d t s j).residues[k] = if k = j then (d * t + s.residues[j]) % 1000 else s.residues[k] := by
  rw [drawStep_residues]
  by_cases h : k = j
  · subst h
    rw [if_pos rfl]
    exact Vector.getElem_set_self ..
  · rw [if_neg h]
    exact Vector.getElem_set_ne j.isLt k.isLt fun e => h (Fin.ext e.symm)

theorem drawStep_station_ne (d t : Nat) (s : State) (j : Pos) (i : Sta) (h : i ≠ staC0) :
    (drawStep d t s j).station i = s.station i := by
  obtain ⟨-, -, hsta, -⟩ := charge_closer j (drawAt d t s j) (withResidue d t s j)
  unfold drawStep
  rw [hsta i h]
  rfl

theorem drawStep_has (d t : Nat) (s : State) (j : Pos) (c : Cause) (h : s.has staC0 c = true) :
    (drawStep d t s j).has staC0 c = true := by
  obtain ⟨-, -, -, hhas⟩ := charge_closer j (drawAt d t s j) (withResidue d t s j)
  exact hhas c h

/-- A position without a MOUNTED bobbin: its residue is kept, and nothing else. -/
theorem drawStep_idle {d t : Nat} {s : State} {j : Pos} (h : ∀ b, s.bobbinAt (.closer j) = some b → b.state ≠ .mounted) :
    drawStep d t s j = withResidue d t s j ∧ shortAt d t s j = drawAt d t s j := by
  have e := charge_idle (i := staC0) (pl := .closer j) (s := withResidue d t s j) (drawAt d t s j) h
  refine ⟨by unfold drawStep; rw [e], ?_⟩
  unfold shortAt given
  split
  · next b hb => rw [if_neg (h b hb)]; rfl
  · rfl

/-- A position with a MOUNTED bobbin: the bobbin's record. -/
theorem drawStep_mounted {d t : Nat} {s : State} {j : Pos} {b : Bobbin} (hb : s.bobbinAt (.closer j) = some b)
    (hm : b.state = .mounted) :
    (drawStep d t s j).bobbins = withBobbin (drawnBy (drawAt d t s j) s.settings.lowMark b) s.bobbins ∧
      ((drawnBy (drawAt d t s j) s.settings.lowMark b).state = .runOut → (drawStep d t s j).has staC0 .feedOut = true) :=
  charge_closer_mounted (s := withResidue d t s j) _ hb hm

/-! ## The draws of all positions -/

theorem foldl_drawPosition_cons (d t : Nat) (s : State) (a : Nat) (j : Pos) (js : List Pos) :
    (j :: js).foldl (drawPosition d t) (s, a) = js.foldl (drawPosition d t) (drawStep d t s j, a + shortAt d t s j) := by
  rw [List.foldl_cons, drawPosition_eq]

/-- What the draws touch: each drawn position's residue, C0 alone of the stations, and no cause taken away. -/
theorem draws_frame (d t : Nat) (js : List Pos) (hjs : js.Nodup) : ∀ (s : State) (a : Nat),
    DrawFrame s (js.foldl (drawPosition d t) (s, a)).1 ∧
      (∀ k, (js.foldl (drawPosition d t) (s, a)).1.residues[k] =
        if k ∈ js then (d * t + s.residues[k]) % 1000 else s.residues[k]) ∧
      (∀ i, i ≠ staC0 → (js.foldl (drawPosition d t) (s, a)).1.station i = s.station i) ∧
      ∀ c, s.has staC0 c = true → (js.foldl (drawPosition d t) (s, a)).1.has staC0 c = true := by
  induction js with
  | nil => exact fun s a => ⟨.refl s, fun k => by simp, fun _ _ => rfl, fun _ h => h⟩
  | cons j js ih =>
    intro s a
    obtain ⟨hj, hjs⟩ := List.nodup_cons.mp hjs
    rw [foldl_drawPosition_cons]
    obtain ⟨hframe, hres, hsta, hhas⟩ := ih hjs (drawStep d t s j) (a + shortAt d t s j)
    refine ⟨(drawStep_frame d t s j).trans hframe, fun k => ?_, fun i hi => ?_, fun c hc => ?_⟩
    · rw [hres, drawStep_residue]
      by_cases hk : k = j
      · subst hk; simp [hj]
      · simp [hk]
    · rw [hsta i hi, drawStep_station_ne d t s j i hi]
    · exact hhas c (drawStep_has d t s j c hc)

/-- With no MOUNTED bobbin at the positions all of the draw is shortfall. -/
theorem draws_idle (d t : Nat) (js : List Pos) (hjs : js.Nodup) : ∀ (s : State) (a : Nat),
    (∀ (j : Pos) (b : Bobbin), s.bobbinAt (.closer j) = some b → b.state ≠ .mounted) →
      (js.foldl (drawPosition d t) (s, a)).1 = { s with residues := (js.foldl (drawPosition d t) (s, a)).1.residues } ∧
      (js.foldl (drawPosition d t) (s, a)).2 = a + (js.map (drawAt d t s)).sum := by
  induction js with
  | nil => exact fun s a _ => ⟨rfl, by simp⟩
  | cons j js ih =>
    intro s a h
    obtain ⟨hj, hjs⟩ := List.nodup_cons.mp hjs
    obtain ⟨hs, ha⟩ := drawStep_idle (d := d) (t := t) (h j)
    rw [foldl_drawPosition_cons]
    obtain ⟨hstate, hsum⟩ := ih hjs (drawStep d t s j) (a + shortAt d t s j) (by rw [hs]; exact h)
    have same : js.map (drawAt d t (drawStep d t s j)) = js.map (drawAt d t s) :=
      List.map_congr_left fun k hk => by
        unfold drawAt
        rw [drawStep_residue, if_neg (by rintro rfl; exact hj hk)]
    refine ⟨?_, ?_⟩
    · rw [hs] at hstate ⊢
      exact hstate
    · rw [hsum, same, ha, List.map_cons, List.sum_cons, Nat.add_assoc]

/-- What a position's draw leaves to the others: their bobbins, their draws and their shortfalls. -/
theorem drawStep_apart {d t : Nat} {s : State} {j : Pos} (hs : IdsOk s) :
    IdsOk (drawStep d t s j) ∧ (drawStep d t s j).settings = s.settings ∧
      (∀ k, k ≠ j → (drawStep d t s j).bobbinAt (.closer k) = s.bobbinAt (.closer k)) ∧
      ∀ b ∈ s.bobbins, (b.state = .mounted → b.place ≠ some (.closer j)) → b ∈ (drawStep d t s j).bobbins := by
  have hset : (drawStep d t s j).settings = s.settings := by rw [drawStep_frame d t s j]
  by_cases hm : ∃ b, s.bobbinAt (.closer j) = some b ∧ b.state = .mounted
  · obtain ⟨b, hb, hm⟩ := hm
    obtain ⟨hbob, -⟩ := drawStep_mounted (d := d) (t := t) hb hm
    have hmem : b ∈ s.bobbins := List.mem_of_find?_eq_some hb
    have hpl : b.place = some (.closer j) := by simpa using List.find?_some hb
    refine ⟨?_, hset, fun k hk => ?_, fun x hx hxm => ?_⟩
    · unfold IdsOk; rw [hbob]; exact pairwise_withBobbin _ hs
    · have hoff : b.place ≠ some (.closer k) := by
        rw [hpl]
        exact fun e => hk (by cases e; rfl)
      exact bobbinAt_withBobbin_ne (b' := drawnBy (drawAt d t s j) s.settings.lowMark b) hs hmem rfl hoff hoff hbob
    · rw [hbob]
      refine mem_withBobbin hx fun e => ?_
      have exb : x = b := eq_of_id_eq hs hx hmem e
      rw [exb] at hxm
      exact hxm hm hpl
  · obtain ⟨e, -⟩ := drawStep_idle (d := d) (t := t) (s := s) (j := j) fun b hb hn => hm ⟨b, hb, hn⟩
    rw [e]
    exact ⟨hs, rfl, fun _ _ => rfl, fun b hb _ => hb⟩

/-- The draws in a table in order: each position gives what its bobbin has, and its record is the drawn one. -/
theorem draws_apart (d t : Nat) (js : List Pos) (hjs : js.Nodup) : ∀ (s : State) (a : Nat), IdsOk s →
    (js.foldl (drawPosition d t) (s, a)).2 = a + (js.map (shortAt d t s)).sum ∧
      (∀ k, k ∉ js → (js.foldl (drawPosition d t) (s, a)).1.bobbinAt (.closer k) = s.bobbinAt (.closer k)) ∧
      (∀ k ∈ js, ∀ b, s.bobbinAt (.closer k) = some b → b.state = .mounted →
        (js.foldl (drawPosition d t) (s, a)).1.bobbinAt (.closer k) =
            some (drawnBy (drawAt d t s k) s.settings.lowMark b) ∧
          ((drawnBy (drawAt d t s k) s.settings.lowMark b).state = .runOut →
            (js.foldl (drawPosition d t) (s, a)).1.has staC0 .feedOut = true)) ∧
      ∀ b ∈ s.bobbins, (b.state = .mounted → ∀ k ∈ js, b.place ≠ some (.closer k)) →
        b ∈ (js.foldl (drawPosition d t) (s, a)).1.bobbins := by
  induction js with
  | nil => exact fun s a _ => ⟨by simp, fun _ _ => rfl, fun k hk => absurd hk List.not_mem_nil, fun b hb _ => hb⟩
  | cons j js ih =>
    intro s a hs
    obtain ⟨hj, hjs⟩ := List.nodup_cons.mp hjs
    rw [foldl_drawPosition_cons]
    obtain ⟨hids, hset, hat, hmem⟩ := drawStep_apart (d := d) (t := t) (j := j) hs
    obtain ⟨-, -, -, hhas⟩ := draws_frame d t js hjs (drawStep d t s j) (a + shortAt d t s j)
    obtain ⟨hsum, hout, hin, hkeep⟩ := ih hjs (drawStep d t s j) (a + shortAt d t s j) hids
    have ne {k : Pos} (hk : k ∈ js) : k ≠ j := by rintro rfl; exact hj hk
    have draw {k : Pos} (hk : k ∈ js) : drawAt d t (drawStep d t s j) k = drawAt d t s k := by
      unfold drawAt
      rw [drawStep_residue, if_neg (ne hk)]
    refine ⟨?_, fun k hk => ?_, fun k hk b hb hm => ?_, fun b hb hbm => ?_⟩
    · have same : js.map (shortAt d t (drawStep d t s j)) = js.map (shortAt d t s) := List.map_congr_left fun k hk => by
        unfold shortAt
        rw [draw hk, hat k (ne hk)]
      rw [hsum, same, List.map_cons, List.sum_cons, Nat.add_assoc]
    · rw [List.mem_cons, not_or] at hk
      rw [hout k hk.2, hat k hk.1]
    · rcases List.mem_cons.mp hk with rfl | hk
      · obtain ⟨hbob, hrun⟩ := drawStep_mounted (d := d) (t := t) hb hm
        exact ⟨(hout k hj).trans (bobbinAt_withBobbin hb rfl rfl hbob), fun h => hhas _ (hrun h)⟩
      · have := hin k hk b ((hat k (ne hk)).trans hb) hm
        rw [draw hk, hset] at this
        exact this
    · refine hkeep b (hmem b hb fun h => hbm h j List.mem_cons_self) fun h k hk => hbm h k (List.mem_cons_of_mem j hk)

/-! ## The take-up draw and its shortfall (R93, R95) -/

theorem mem_positions {r : RopeLot} {j : Pos} : j ∈ r.positions ↔ j.val < r.strands := by
  have h : ∀ n : Nat, n ≤ 4 → (j ∈ allPositions.take n ↔ j.val < n) := by
    revert j; decide
  unfold RopeLot.positions
  by_cases hn : r.strands ≤ 4
  · exact h _ hn
  · rw [List.take_of_length_le (show allPositions.length ≤ r.strands by show 4 ≤ _; omega)]
    have := (h 4 (Nat.le_refl 4))
    have hj := j.isLt
    rw [show allPositions.take 4 = allPositions from rfl] at this
    rw [this]
    omega

theorem positions_nodup (r : RopeLot) : r.positions.Nodup :=
  List.Nodup.sublist (List.take_sublist ..) (by decide)

/-- The shortfall of an increment, in the receiving coil and nowhere else. -/
theorem coilShortfall_frame (x : Nat) (s : State) : coilShortfall x s = { s with coiler := (coilShortfall x s).coiler } := by
  unfold coilShortfall modCoil
  split
  · split <;> rfl
  · rfl

theorem coilShortfall_none {x : Nat} {s : State} (h : s.receiving = none) : coilShortfall x s = s := by
  unfold coilShortfall; rw [h]

theorem coilShortfall_busy {x : Nat} {s : State} {id : ArborId} {ph : ArborPhase} {c : Coil} (hr : s.receiving = some id)
    (ha : s.arbor id = .busy ph c) :
    coilShortfall x s = s.setArbor id (.busy ph { c with shortfall := c.shortfall.add x }) := by
  unfold coilShortfall modCoil
  rw [hr]
  dsimp only
  rw [ha]

/-- The take-up draw: the draws of the positions, C0's shortfall tally, and the coil's. -/
theorem takeUpDraw_eq {d : Nat} {s : State} {r : RopeLot} (hr : s.rope = some r) {u : State} {short : Nat}
    (h : r.positions.foldl (drawPosition d r.takeUp) (s, 0) = (u, short)) (hu : DrawFrame s u) :
    takeUpDraw d s = { u with closerShort := s.closerShort.add short, coiler := (takeUpDraw d s).coiler } ∧
      (s.receiving = none → (takeUpDraw d s).coiler = s.coiler) ∧
      ∀ id ph c, s.receiving = some id → s.arbor id = .busy ph c →
        (takeUpDraw d s).coiler = s.coiler.setArbor id (.busy ph { c with shortfall := c.shortfall.add short }) := by
  have hcoil : u.coiler = s.coiler := by rw [hu]
  have hshort : u.closerShort = s.closerShort := by rw [hu]
  have e : takeUpDraw d s = coilShortfall short { u with closerShort := s.closerShort.add short } := by
    unfold takeUpDraw
    rw [hr]
    dsimp only
    rw [h, hshort]
  have hrec : State.receiving { u with closerShort := s.closerShort.add short } = s.receiving := by
    unfold State.receiving; rw [hcoil]
  have harb (id : ArborId) : State.arbor { u with closerShort := s.closerShort.add short } id = s.arbor id := by
    unfold State.arbor; rw [hcoil]
  rw [e]
  refine ⟨coilShortfall_frame .., fun hn => ?_, fun id ph c hi ha => ?_⟩
  · rw [coilShortfall_none (hrec.trans hn)]; exact hcoil
  · rw [coilShortfall_busy (hrec.trans hi) ((harb id).trans ha)]
    exact congrArg (fun k : Coiler => k.setArbor id _) hcoil

end Sys2Proof.Laws

namespace Sys2Proof.Proofs

open Sys2Proof.Machine Sys2Proof.Safety Sys2Proof.Laws

/-- Settles O22: the counts, the order of the two users, and the draws position by position. -/
theorem closerCapEdgesDraw : Obligations.CloserCapEdgesDraw := by
  refine ⟨fun s => ?_, fun d s => ⟨fun hr => ?_, fun r hr => ?_⟩⟩
  · intro d w c
    have e : capEdge 4 s = useCap 4 d (capCounted 4 d s) := congrArg (useCap 4 d) (layCap_accumulate 4 d s)
    rw [e]
    unfold useCap
    dsimp only
    cases Config.drawsFirst (capCounted 4 d s).choices with
    | true => exact .inl rfl
    | false => exact .inr rfl
  · unfold takeUpDraw; rw [hr]
  · have hnd := positions_nodup r
    obtain ⟨hframe, hres, hsta, hhas⟩ := draws_frame d r.takeUp r.positions hnd s 0
    have hidle := draws_idle d r.takeUp r.positions hnd s 0
    have hfull := draws_apart d r.takeUp r.positions hnd s 0
    obtain ⟨hdraw, hnone, hbusy⟩ := takeUpDraw_eq (d := d) (u := (r.positions.foldl (drawPosition d r.takeUp) (s, 0)).1)
      (short := (r.positions.foldl (drawPosition d r.takeUp) (s, 0)).2) hr rfl hframe
    generalize (r.positions.foldl (drawPosition d r.takeUp) (s, 0)).1 = u at *
    generalize (r.positions.foldl (drawPosition d r.takeUp) (s, 0)).2 = short at *
    generalize takeUpDraw d s = v at *
    have hresidues : v.residues = u.residues := by rw [hdraw]
    have hstations (i : Sta) : v.station i = u.station i := by rw [hdraw]; rfl
    have hbobbins : v.bobbins = u.bobbins := by rw [hdraw]
    refine ⟨fun j => ?_, fun hm => ?_, fun hB => ?_⟩
    · rw [hresidues, hres j]
      simp only [mem_positions]
    · intro total
      obtain ⟨hu, hsum⟩ := hidle hm
      have hshort : short = total := by rw [hsum, Nat.zero_add]; rfl
      rw [hshort] at hdraw hbusy
      refine ⟨?_, hnone, hbusy⟩
      rw [hresidues, hdraw]
      rw [hu]
    · intro w draw gives total
      have hids : IdsOk s := hB.1.2.1
      obtain ⟨hsum, -, hin, hkeep⟩ := hfull hids
      have hshort : short = total := by rw [hsum, Nat.zero_add]; rfl
      rw [hshort] at hdraw hbusy
      refine ⟨?_, hnone, hbusy, fun i hi => (hstations i).trans (hsta i hi), fun j b hj hb hm => ?_, fun b hb hbm => ?_⟩
      · refine hdraw.trans ?_
        have hrest : v.stations = u.stations ∧ v.twists = u.twists ∧ v.ports = u.ports ∧ v.queues = u.queues := by
          rw [hdraw]; exact ⟨rfl, rfl, rfl, rfl⟩
        obtain ⟨hst, htw, hpo, hqu⟩ := hrest
        unfold w
        rw [hresidues, hbobbins, hst, htw, hpo, hqu]
        exact congrArg (fun x : State => { x with closerShort := s.closerShort.add total, coiler := v.coiler }) hframe
      · intro left
        obtain ⟨hat, hrun⟩ := hin j (mem_positions.mpr hj) b hb hm
        have hgives : gives j = min (drawAt d r.takeUp s j) (b.wound.total - b.drawn.total) := by
          show given (drawAt d r.takeUp s j) (s.bobbinAt (.closer j)) = _
          rw [hb]
          exact if_pos hm
        have hleft : left =
            b.wound.total - b.drawn.total - min (drawAt d r.takeUp s j) (b.wound.total - b.drawn.total) := by
          unfold left; rw [hgives]
        refine ⟨((bobbinAt_congr hbobbins _).trans hat).trans ?_, fun h => ?_⟩
        · rw [hgives, hleft]; rfl
        · rw [hstations]
          exact hrun (if_pos (hleft.symm.trans h))
      · rw [hbobbins]
        exact hkeep b hb fun h k hk => hbm h k (mem_positions.mp hk)

end Sys2Proof.Proofs
end

section
/-! FAULT_CLEAR (O11, O12). -/

namespace Sys2Proof.Laws

open Sys2Proof.Machine Sys2Proof.Safety

theorem writeStation_self (i : Sta) (s : State) : writeStation i (s.station i) s = s := by
  unfold writeStation
  rw [if_pos rfl]
  exact State.setStation_station_id ..

/-! ## COILER_HALT taken from C0 (R4) -/

/-- K0 leaving HALTED takes COILER_HALT from C0, which moves by R7. -/
theorem coilerReleased_eq (before s : State) :
    coilerReleased before s =
      if (before.station staK0).state = .halted ∧ (s.station staK0).state ≠ .halted ∧ s.has staC0 .coilerHalt = true then
        writeStation staC0 (emptied staC0 ((s.station staC0).causes &&& 0x7FF) (s.station staC0)) s
      else s := by
  unfold coilerReleased
  rw [dropCause_eq (by simp), settleOne_setStation]
  rfl

theorem coilerReleased_idle {before s : State} (h : s.station staK0 = before.station staK0) : coilerReleased before s = s := by
  rw [coilerReleased_eq, if_neg]
  rintro ⟨h1, h2, -⟩
  rw [h] at h2
  exact h2 h1

theorem coilerReleased_congr {before before' : State} (s : State)
    (h : (before.station staK0).state = (before'.station staK0).state) : coilerReleased before s = coilerReleased before' s := by
  unfold coilerReleased
  rw [h]

/-! ## The clearing of one station (R10) -/

/-- What FAULT_CLEAR leaves of a cause set. -/
theorem without_clearable (i : Sta) (s : State) :
    without (clearable i s) (s.station i).causes =
      (s.station i).causes &&& (if (s.station i).retryUntilMs.isSome then 0xFE1 else 0xFE0) := by
  unfold clearable
  split
  · simp only [without, plainLatched, List.nil_append, List.foldl, BitSet.del, BitVec.and_assoc]
    rfl
  · simp only [without, plainLatched, List.cons_append, List.nil_append, List.foldl, BitSet.del, BitVec.and_assoc]
    rfl

/-- FAULT_CLEAR of one station: its record cleared, and C0 released where K0 leaves HALTED. -/
theorem clearFaults_eq (i : Sta) (s : State) :
    clearFaults i s = coilerReleased s (writeStation i (cleared i (s.station i)) s) := by
  have hx := without_clearable i s
  unfold clearFaults
  extract_lets cs
  have hcs : .laySevere ∈ cs → (s.station i).retryUntilMs = none := by
    unfold cs clearable
    cases (s.station i).retryUntilMs with
    | none => exact fun _ => rfl
    | some t => simp [plainLatched]
  have hany : without cs (s.station i).causes = (s.station i).causes ↔ cs.any (s.has i) = false := without_eq_self_iff ..
  rw [show without cs (s.station i).causes = _ from hx] at hany
  unfold cleared
  dsimp only
  cases h : cs.any (s.has i) with
  | false =>
    rw [if_neg (by simp), if_pos (hany.mpr h), writeStation_self]
    exact (coilerReleased_idle rfl).symm
  | true =>
    rw [if_pos rfl, if_neg (fun e => by rw [hany.mp e] at h; cases h)]
    have hdrop := dropAll_eq cs s hcs
    rw [show without cs (s.station i).causes = _ from hx] at hdrop
    rw [hdrop]
    unfold settle
    rw [settleOne_setStation]
    refine coilerReleased_congr _ ?_
    rw [State.setStation_station]
    split
    · next e => rw [e]
    · rfl

theorem clearFaults_ne (i : Sta) (s : State) (h : i ≠ staK0) :
    clearFaults i s = writeStation i (cleared i (s.station i)) s := by
  rw [clearFaults_eq]
  exact coilerReleased_idle (writeStation_station_ne _ _ _ _ (Ne.symm h))

theorem coilerReleased_noticed (before s : State) : Noticed s (coilerReleased before s) := by
  rw [coilerReleased_eq]
  split
  · exact writeStation_noticed ..
  · exact .refl s

theorem clearFaults_noticed (i : Sta) (s : State) : Noticed s (clearFaults i s) := by
  rw [clearFaults_eq]
  exact (writeStation_noticed ..).trans (coilerReleased_noticed ..)

/-- `t` differs from `s` in the station records and in notices. -/
def StaFrame (s t : State) : Prop := t = { s with stations := t.stations, ports := t.ports, queues := t.queues }

theorem StaFrame.refl (s : State) : StaFrame s s := rfl

theorem StaFrame.trans {s t u : State} (h : StaFrame s t) (k : StaFrame t u) : StaFrame s u := by
  unfold StaFrame at *
  rw [h] at k
  exact k

theorem writeStation_staFrame (i : Sta) (r : Station) (s : State) : StaFrame s (writeStation i r s) :=
  StaFrame.trans (t := s.setStation i r) rfl (by unfold StaFrame; rw [(writeStation_frame i r s).1])

theorem clearFaults_staFrame (i : Sta) (s : State) : StaFrame s (clearFaults i s) := by
  rw [clearFaults_eq, coilerReleased_eq]
  split
  · exact (writeStation_staFrame ..).trans (writeStation_staFrame ..)
  · exact writeStation_staFrame ..

/-! ## The clearing of several stations (R11) -/

theorem foldl_clearFaults_staFrame (is : List Sta) (s : State) : StaFrame s (is.foldl (fun s i => clearFaults i s) s) :=
  foldl_frame (F := StaFrame) .refl .trans _ (fun s i => clearFaults_staFrame i s) is s

theorem foldl_clearFaults_noticed (is : List Sta) (s : State) : Noticed s (is.foldl (fun s i => clearFaults i s) s) :=
  foldl_frame (F := Noticed) .refl .trans _ (fun s i => clearFaults_noticed i s) is s

/-- Stations other than K0 are cleared one by one, each its own. -/
theorem foldl_clearFaults_station (is : List Sta) (hK : staK0 ∉ is) (hnd : is.Nodup) : ∀ (s : State) (j : Sta),
    (is.foldl (fun s i => clearFaults i s) s).station j =
      if j ∈ is then cleared j (s.station j) else s.station j := by
  induction is with
  | nil => exact fun s j => by simp
  | cons i is ih =>
    intro s j
    rw [List.mem_cons, not_or] at hK
    obtain ⟨hi, hnd⟩ := List.nodup_cons.mp hnd
    rw [List.foldl_cons, ih hK.2 hnd, clearFaults_ne i s (Ne.symm hK.1)]
    by_cases hj : j = i
    · subst hj
      rw [writeStation_station, if_neg hi, if_pos List.mem_cons_self]
    · rw [writeStation_station_ne _ _ _ _ hj]
      simp [hj]

/-- The stations bound to a port other than K0. -/
def boundBesideK0 (p : Port) (s : State) : List Sta := ([0, 1, 2, 3, 4, 5, 6] : List Sta).filter fun i => (s.station i).bound == some p

theorem boundStations_eq (p : Port) (s : State) :
    boundStations p s = boundBesideK0 p s ++ if (s.station staK0).bound = some p then [staK0] else [] := by
  unfold boundStations boundBesideK0
  rw [show allStations = [0, 1, 2, 3, 4, 5, 6] ++ [staK0] from rfl, List.filter_append, List.filter_singleton,
    Bool.cond_eq_ite]
  simp only [beq_iff_eq]

theorem mem_boundBesideK0 {p : Port} {s : State} {i : Sta} : i ∈ boundBesideK0 p s ↔ (s.station i).bound = some p ∧ i ≠ staK0 := by
  have h : ∀ i : Sta, i ∈ ([0, 1, 2, 3, 4, 5, 6] : List Sta) ↔ i ≠ staK0 := by decide
  unfold boundBesideK0
  rw [List.mem_filter, h, beq_iff_eq]
  exact and_comm

theorem mem_boundStations {p : Port} {s : State} {i : Sta} : i ∈ boundStations p s ↔ (s.station i).bound = some p := by
  unfold boundStations
  rw [List.mem_filter, beq_iff_eq]
  exact and_iff_right (by revert i; decide)

end Sys2Proof.Laws

namespace Sys2Proof.Proofs

open Sys2Proof.Machine Sys2Proof.Safety Sys2Proof.Laws

/-- Settles O11: the station cleared, and C0 released by K0. -/
theorem faultClearRemovesLatchedCauses : Obligations.FaultClearRemovesLatchedCauses := by
  intro p i s hL hs code b c0
  have hi : (validArrival p s).station i = s.station i := validArrival_station p s i
  have hb : b = writeStation i (cleared i ((validArrival p s).station i)) (validArrival p s) := by rw [hi]
  have hclear : clearFaults i (validArrival p s) =
      if i = staK0 ∧ (s.station i).state = .halted ∧ (b.station i).state ≠ .halted ∧ hasCause c0.causes .coilerHalt = true
        then writeStation staC0 (emptied staC0 (c0.causes &&& 0x7FF) c0) b else b := by
    by_cases hK : i = staK0
    · subst hK
      have hc0 : b.station staC0 = c0 := by
        rw [hb, writeStation_station_ne _ _ _ _ (by decide), validArrival_station]
      rw [clearFaults_eq, ← hb, coilerReleased_eq, hc0, hi]
      unfold State.has
      rw [hc0]
      simp
    · rw [clearFaults_ne _ _ hK, ← hb, if_neg (fun h => hK h.1)]
  rw [← hclear]
  refine answers_of_steered (r := .faultClear (staByte i)) hL hs rfl rfl rfl ?_ (clearFaults_noticed ..)
  have hne : staByte i ≠ 0xFF := by clear * -; revert i; decide
  simp only [owner, serveFaultClear]
  rw [if_neg hne, staOf_staByte]
  simp [hi, code]

/-- Settles O12: the stations but K0 one by one, and K0 last with what it releases. -/
theorem faultClearAllClearsTheBound : Obligations.FaultClearAllClearsTheBound := by
  intro p s code hL hex hcode r
  have hsta := validArrival_station p s
  have hmem {i : Sta} : i ∈ boundStations p (validArrival p s) ↔ Steers p i s := by rw [mem_boundStations, hsta]
  have hne : boundStations p (validArrival p s) ≠ [] := by
    obtain ⟨i, hi⟩ := hex
    exact List.ne_nil_of_mem (hmem.mpr hi)
  have howner : owner p (.faultClear 0xFF) (validArrival p s) =
      ((boundStations p (validArrival p s)).foldl (fun s i => clearFaults i s) (validArrival p s), code, []) := by
    have hany : (boundStations p (validArrival p s)).any (fun i => ((validArrival p s).station i).retryUntilMs.isSome) = true ↔
        ∃ i, Steers p i s ∧ (s.station i).retryUntilMs ≠ none := by
      simp only [List.any_eq_true, hmem, hsta, Option.isSome_iff_ne_none]
    show serveFaultClear p 0xFF _ = _
    unfold serveFaultClear
    dsimp only
    rw [if_pos rfl, if_neg hne]
    rcases hcode with ⟨rfl, h⟩ | ⟨rfl, h⟩
    · rw [if_pos (hany.mpr h)]
    · rw [if_neg]
      rintro hk
      obtain ⟨i, hi, hr⟩ := hany.mp hk
      exact hr (h i hi)
  refine ⟨_, answers_of_checked (r := .faultClear 0xFF) hL rfl rfl ((checked_owner _ _ _ 0xFF rfl rfl rfl).trans howner)
    (foldl_clearFaults_noticed ..), foldl_clearFaults_staFrame .., ?_⟩
  have hrK (i : Sta) : r i = if i ∈ boundStations p (validArrival p s) then cleared i (s.station i) else s.station i :=
    if_congr hmem.symm rfl rfl
  have hfirst (i : Sta) := foldl_clearFaults_station (boundBesideK0 p (validArrival p s))
    (fun h => (mem_boundBesideK0.mp h).2 rfl) (List.Nodup.filter _ (by decide)) (validArrival p s) i
  rw [boundStations_eq, List.foldl_append]
  generalize (boundBesideK0 p (validArrival p s)).foldl (fun s i => clearFaults i s) (validArrival p s) = v at hfirst
  have hv (i : Sta) (hi : i ≠ staK0) : v.station i = r i := by
    rw [hfirst, hrK, hsta]
    exact if_congr (mem_boundBesideK0.trans ((and_iff_left hi).trans mem_boundStations.symm)) rfl rfl
  have hvK : v.station staK0 = s.station staK0 := by
    rw [hfirst, if_neg fun h => (mem_boundBesideK0.mp h).2 rfl, hsta]
  rw [hsta]
  by_cases hb : (s.station staK0).bound = some p
  · have hrk : cleared staK0 (v.station staK0) = r staK0 := by rw [hvK]; exact (if_pos hb).symm
    have hw : (writeStation staK0 (r staK0) v).station staC0 = r staC0 := by
      rw [writeStation_station_ne _ _ _ _ (by decide), hv _ (by decide)]
    rw [if_pos hb, List.foldl_cons, List.foldl_nil, clearFaults_eq, hrk, coilerReleased_eq]
    unfold State.has
    rw [hw, writeStation_station, hvK]
    refine ⟨fun i hi => ?_, ?_⟩
    · have hb : (writeStation staK0 (r staK0) v).station i = r i := by
        by_cases hK : i = staK0
        · rw [hK, writeStation_station]
        · rw [writeStation_station_ne _ _ _ _ hK, hv i hK]
      split
      · rw [writeStation_station_ne _ _ _ _ hi, hb]
      · exact hb
    · split
      · rw [writeStation_station]
      · exact hw
  · rw [if_neg hb, List.foldl_nil]
    have hrk : r staK0 = s.station staK0 := if_neg hb
    refine ⟨fun i hi => ?_, ?_⟩
    · by_cases hK : i = staK0
      · rw [hK, hvK, hrk]
      · exact hv i hK
    · rw [hv _ (by decide), if_neg]
      rw [hrk]
      exact fun h => h.2.1 h.1

end Sys2Proof.Proofs
end

section
/-! STATION_RUN of a twisting station (O34). -/

namespace Sys2Proof.Laws

open Sys2Proof.Machine Sys2Proof.Safety

/-! ## The state in which a request's frame has arrived -/

/-- `a` is `s` but for the ports and the notice queues. -/
def Arrived (s a : State) : Prop := a = { s with ports := a.ports, queues := a.queues }

theorem validArrival_arrived (p : Port) (s : State) : Arrived s (validArrival p s) := validArrival_eq p s

namespace Arrived

variable {s a : State} (h : Arrived s a)
include h

theorem station (i : Sta) : a.station i = s.station i := by rw [h]; rfl
theorem twist (t : Twi) : a.twist t = s.twist t := by rw [h]; rfl
theorem loom (l : Loom) : a.loom l = s.loom l := by rw [h]; rfl
theorem lots : a.lots = s.lots := by rw [h]
theorem bobbins : a.bobbins = s.bobbins := by rw [h]
theorem coiler : a.coiler = s.coiler := by rw [h]
theorem meter : a.meter = s.meter := by rw [h]
theorem settings : a.settings = s.settings := by rw [h]
theorem nowMs : a.nowMs = s.nowMs := by rw [h]; rfl
theorem lot? (n : Nat) : a.lot? n = s.lot? n := lot?_congr h.lots n
theorem hasLot {k : Slot} {l : Lot} (hl : HasLot s k l) : HasLot a k l := HasLot.congr hl h.lots
theorem bobbin? (n : Nat) : a.bobbin? n = s.bobbin? n := by rw [h]; rfl
theorem bobbinAt (pl : Place) : a.bobbinAt pl = s.bobbinAt pl := by rw [h]; rfl
theorem lotOf (i : Sta) : a.lotOf i = s.lotOf i := by rw [h]; rfl
theorem rope : a.rope = s.rope := by rw [h]; rfl
theorem turns (t : Twi) : a.turns t = s.turns t := by rw [h]; rfl
theorem usedPlaces (i : Sta) : usedPlaces i a = Machine.usedPlaces i s := by rw [h]; rfl
theorem placesMounted (i : Sta) : feedsMounted i a = feedsMounted i s := by rw [h]; rfl
theorem arbor (id : ArborId) : a.arbor id = s.arbor id := by rw [h]; rfl
theorem windingArbor : a.windingArbor = s.windingArbor := by rw [h]; rfl

end Arrived

/-! ## The start of a run (R48, R65) -/

/-- A twisting station's own fields at the start of a run. -/
def runStarted (t : Twi) (s : State) (w : Twist) : Twist :=
  { w with
    lay := { w.lay with
      isOpen := true, closeCount := s.turns t * s.settings.flyer[t], p := 0, dl := 0, openMs := s.nowMs
      seedPending := true, good := 0, drift := 0 }
    runUp := { count := 0, running := some (s.nowMs, s.settings.scale.ms) }
    runDown := { count := 0, running := none }
    runUpLong := false, runDownLong := false, stillMs := some s.nowMs }

theorem startTwist_eq (t : Twi) (s : State) :
    startTwist t s = writeStation (twiSta t) { s.station (twiSta t) with state := .runUp }
      (s.setTwist t (runStarted t s (s.twist t))) := by
  unfold startTwist
  dsimp only
  rw [moveTo_eq_writeStation]
  rfl

theorem startTwist_noticed (t : Twi) (s : State) : Noticed s (startTwist t s) := by
  rw [startTwist_eq]
  exact (Noticed.of_ports (a := s) (u := s.setTwist t _) rfl rfl).trans (writeStation_noticed ..)

theorem runTwist_resting {t : Twi} {s : State} (h : (s.station (twiSta t)).state ≠ .standby) :
    runTwist t s = refuse .wrongState s := if_pos h

theorem runTwist_strander {t : Twi} {k : Strander} {s : State} (hk : strSta k = twiSta t)
    (h : (s.station (twiSta t)).state = .standby) :
    ((∃ b, s.bobbinAt (.winding k) = some b ∧ b.state = .winding) → runTwist t s = answerOk (startTwist t s)) ∧
      ((∀ b, s.bobbinAt (.winding k) = some b → b.state ≠ .winding) → runTwist t s = refuse .noBobbin s) := by
  have hk' : stranderOf (twiSta t) = some k := by rw [← hk]; clear * -; revert k; decide
  unfold runTwist
  rw [if_neg (not_not.mpr h), hk']
  refine ⟨fun ⟨b, hb, hw⟩ => ?_, fun hn => ?_⟩
  · dsimp only
    rw [hb]
    exact if_pos hw
  · dsimp only
    split
    · next b hb => exact if_neg (hn b hb)
    · rfl

theorem feedsMounted_iff {i : Sta} {s : State} :
    feedsMounted i s = true ↔ ∀ pl ∈ usedPlaces i s, ∃ b, s.bobbinAt pl = some b ∧ b.state = .mounted := by
  unfold feedsMounted
  rw [List.all_eq_true]
  refine forall_congr' fun pl => imp_congr_right fun _ => ?_
  unfold State.mountedAt
  split
  · next b hb => simp [hb]
  · next hb => simp [hb]

theorem runTwist_closer {s : State} (h : (s.station staC0).state = .standby) :
    runTwist 4 s = if feedsMounted staC0 s then runCloser s else refuse .feedMissing s := if_neg (not_not.mpr h)

/-! ## The coil start at a run (R140) -/

/-- Ids that are new to a coil, and for which its list has room, all join it in order. -/
theorem foldl_addBobbin (ids : List Nat) : ∀ c : Coil, (c.bobbins ++ ids).Nodup →
    (c.bobbins ++ ids).length ≤ Config.coilBobbinMax →
      ids.foldl Coil.addBobbin c = { c with bobbins := c.bobbins ++ ids } := by
  induction ids with
  | nil => exact fun c _ _ => by simp
  | cons id ids ih =>
    intro c hnd hlen
    have hnew : c.bobbins.contains id = false := by
      rw [List.contains_eq_mem, decide_eq_false_iff_not]
      exact fun h => List.disjoint_of_nodup_append hnd h List.mem_cons_self
    have hroom : c.bobbins.length < Config.coilBobbinMax := by
      rw [List.length_append, List.length_cons] at hlen; omega
    have hadd : c.addBobbin id = { c with bobbins := c.bobbins ++ [id] } := by
      unfold Coil.addBobbin
      rw [hnew, if_neg (by simp), if_pos hroom]
    rw [List.foldl_cons, hadd, ih]
    · simp
    · simpa using hnd
    · simpa using hlen

/-- With every position of the lot MOUNTED a coil is seeded with their bobbins' ids, each once (R98). -/
theorem seedIds_mounted {s : State} {c : RopeLot}
    (h : ∀ j ∈ c.positions, ∃ b, s.bobbinAt (.closer j) = some b ∧ b.state = .mounted) (hs : IdsOk s) :
    s.seedIds c = c.positions.filterMap (fun j => (s.bobbinAt (.closer j)).map Bobbin.id) ∧ (s.seedIds c).Nodup ∧
      (s.seedIds c).length ≤ 4 := by
  have hlen : c.positions.length ≤ 4 := by
    unfold RopeLot.positions
    rw [List.length_take]
    exact Nat.min_le_right ..
  refine ⟨?_, ?_, (List.length_filterMap_le ..).trans hlen⟩
  · unfold State.seedIds
    refine List.filterMap_congr fun j hj => ?_
    obtain ⟨b, hb, hm⟩ := h j hj
    rw [hb]
    exact if_pos hm
  · unfold State.seedIds
    refine List.Nodup.filterMap (fun j j' id hid hid' => ?_) (positions_nodup c)
    have seeded {j : Pos} (hj : id ∈ (match s.bobbinAt (.closer j) with
        | some b => if b.state = BobbinState.mounted then some b.id else none
        | none => none)) : ∃ b, s.bobbinAt (.closer j) = some b ∧ b.id = id := by
      cases hb : s.bobbinAt (.closer j) with
      | none => rw [hb] at hj; cases hj
      | some b =>
        rw [hb] at hj
        dsimp only at hj
        split at hj
        · exact ⟨b, rfl, Option.some.inj hj⟩
        · cases hj
    obtain ⟨b, hb, e⟩ := seeded hid
    obtain ⟨b', hb', e'⟩ := seeded hid'
    have hbb : b = b' :=
      eq_of_id_eq hs (List.mem_of_find?_eq_some hb) (List.mem_of_find?_eq_some hb') (e.trans e'.symm)
    have hpl : b.place = some (.closer j) := by simpa using List.find?_some hb
    have hpl' : b'.place = some (.closer j') := by simpa using List.find?_some hb'
    rw [hbb, hpl'] at hpl
    cases hpl
    rfl

/-- The coil with which C0's arbor starts for its lot `l` (R139, R140). -/
def startedCoil (l : Lot) (c : RopeLot) (s : State) : Coil :=
  { Coil.fresh l.number (l.started + 1) (if s.meter.stall then .capstan else .wheel) s.worksClock with
    bobbins := c.positions.filterMap fun j => (s.bobbinAt (.closer j)).map Bobbin.id }

theorem rope_eq_some {s : State} {l : Lot} {c : RopeLot} (hl : s.lotOf staC0 = some l) (hc : l.build = .rope c) :
    s.rope = some c := by
  unfold State.rope
  rw [hl]
  obtain ⟨_, _, _, _, build, _⟩ := l
  cases hc
  rfl

theorem lotOf_eq_some {s : State} {i : Sta} {k : Slot} {l : Lot} (hi : (s.station i).lot = some l.number)
    (hl : HasLot s k l) : s.lotOf i = some l := by
  unfold State.lotOf
  rw [hi]
  exact hasLot_lot? hl

/-- A coil start for C0's lot, its positions MOUNTED. -/
theorem startCoil_eq {s : State} {id : ArborId} {k : Slot} {l : Lot} {c : RopeLot} (hl : HasLot s k l)
    (hi : (s.station staC0).lot = some l.number) (hc : l.build = .rope c)
    (hm : ∀ j ∈ c.positions, ∃ b, s.bobbinAt (.closer j) = some b ∧ b.state = .mounted) (hs : IdsOk s) :
    startCoil id l.number s =
      { s with
        lots := s.lots.set k (some { l with started := l.started + 1 })
        coiler := s.coiler.setArbor id (.busy .winding (startedCoil l c s))
        meter := if s.meter.stall then s.meter else { s.meter with slipOpen := true, winCap := 0, winWheel := 0 } } := by
  have hadd : addStart l.number s = s.setLot k (some { l with started := l.started + 1 }) := modLot_of_hasLot hl _
  have hl' : HasLot (s.setLot k (some { l with started := l.started + 1 })) k { l with started := l.started + 1 } :=
    hasLot_setLot hl rfl
  have hlot : (s.setLot k (some { l with started := l.started + 1 })).lot? l.number =
      some { l with started := l.started + 1 } := hasLot_lot? hl'
  have hrope : (s.setLot k (some { l with started := l.started + 1 })).rope = some c :=
    rope_eq_some (lotOf_eq_some (i := staC0) (l := { l with started := l.started + 1 }) hi hl') hc
  obtain ⟨hseed, hnd, hlen⟩ := seedIds_mounted hm hs
  have hcoil : (s.seedIds c).foldl Coil.addBobbin
      (Coil.fresh l.number (l.started + 1) (if s.meter.stall then .capstan else .wheel) s.worksClock) = startedCoil l c s := by
    rw [foldl_addBobbin]
    · unfold startedCoil; rw [← hseed]; rfl
    · exact hnd
    · exact hlen.trans (by decide)
  unfold startCoil
  rw [hadd]
  extract_lets u seq c0 c1 v
  have hseq : seq = l.started + 1 := by
    show (match u.lot? l.number with | some l => l.started | none => 0) = _
    rw [show u.lot? l.number = _ from hlot]
  have hc1 : c1 = startedCoil l c s := by
    show (match u.rope with | some r => (u.seedIds r).foldl Coil.addBobbin c0 | none => c0) = _
    rw [show u.rope = _ from hrope]
    show (s.seedIds c).foldl Coil.addBobbin (Coil.fresh l.number seq _ _) = _
    rw [hseq]
    exact hcoil
  have hv : v = (s.setLot k (some { l with started := l.started + 1 })).setArbor id (.busy .winding (startedCoil l c s)) := by
    rw [← hc1]
  rw [hv]
  show (if s.meter.stall then _ else _) = _
  split <;> rfl

theorem Arrived.startedCoil {s a : State} (h : Arrived s a) (l : Lot) (c : RopeLot) :
    startedCoil l c a = Laws.startedCoil l c s := by rw [h]; rfl

/-- The state in which C0's run begins, its coil started on arbor `id`. -/
def coilBegun (id : ArborId) (k : Slot) (l : Lot) (c : RopeLot) (s a : State) : State :=
  { a with
    lots := s.lots.set k (some { l with started := l.started + 1 })
    coiler := s.coiler.setArbor id (.busy .winding (startedCoil l c s))
    meter := if s.meter.stall then s.meter else { s.meter with slipOpen := true, winCap := 0, winWheel := 0 } }

/-- The coil's start is counted, and C0's lot is the same but for it. -/
theorem coilBegun_lotOf {id : ArborId} {k : Slot} {l : Lot} {c : RopeLot} {s a : State} (hl : HasLot s k l)
    (hi : (a.station staC0).lot = some l.number) :
    (coilBegun id k l c s a).lotOf staC0 = some { l with started := l.started + 1 } :=
  lotOf_eq_some (l := { l with started := l.started + 1 }) hi
    (HasLot.congr (hasLot_setLot (l' := { l with started := l.started + 1 }) hl rfl) rfl)

theorem freeArborId_eq {s : State} {id : ArborId} (h : s.arbor id = .free) (hb : id = .b → s.coiler.a ≠ .free) :
    freeArborId s = some id := by
  unfold freeArborId
  cases id with
  | a => rw [show s.coiler.a = .free from h]; rfl
  | b =>
    rw [show s.coiler.b = .free from h]
    cases ha : s.coiler.a with
    | free => exact absurd ha (hb rfl)
    | busy ph c => rfl

theorem runCloser_going {s : State} (h : s.windingArbor ≠ none) : runCloser s = answerOk (startTwist 4 s) :=
  if_pos (Option.isSome_iff_ne_none.mpr h)

/-- With no arbor WINDING or SLOWING the run starts a coil of C0's lot first. -/
theorem runCloser_starting {s : State} {id : ArborId} {l : Lot} (h : s.windingArbor = none)
    (hf : freeArborId s = some id) (hl : s.lotOf staC0 = some l) (hc : canStart l.number s = true) :
    runCloser s = answerOk (startTwist 4 (startCoil id l.number s)) := by
  unfold runCloser
  rw [h, hf, hl]
  exact if_pos hc

/-- A run starts with what is set and what time it is, and with the turns of the lot. -/
theorem startTwist_arrived {t : Twi} {s u : State} (hsta : u.station (twiSta t) = s.station (twiSta t))
    (htw : u.twist t = s.twist t) (hset : u.settings = s.settings) (hnow : u.nowMs = s.nowMs)
    (hturns : u.turns t = s.turns t) :
    startTwist t u = writeStation (twiSta t) { s.station (twiSta t) with state := .runUp }
      (u.setTwist t (runStarted t s (s.twist t))) := by
  rw [startTwist_eq, hsta, htw]
  unfold runStarted
  rw [hset, hnow, hturns]

theorem usedPlaces_closer {s : State} {c : RopeLot} (h : s.rope = some c) : usedPlaces staC0 s = c.positions.map .closer := by
  unfold usedPlaces
  rw [show loomOf staC0 = none from rfl, h]
  exact if_pos rfl

theorem canStart_of_rope {s : State} {k : Slot} {l : Lot} {c : RopeLot} (hl : HasLot s k l) (hc : l.build = .rope c)
    (hlt : l.started < c.ordered) (hcl : l.state ≠ .closed) : canStart l.number s = true := by
  unfold canStart
  rw [hasLot_lot? hl]
  simp [hc, Build.ordered, hlt, hcl]

theorem turns_eq {s : State} {t : Twi} {l : Lot} (h : s.lotOf (twiSta t) = some l) :
    s.turns t = match l.build.layTerms with | some (_, _, n) => n | none => 0 := by
  unfold State.turns State.layTerms
  rw [h]
  rfl

end Sys2Proof.Laws

namespace Sys2Proof.Proofs

open Sys2Proof.Machine Sys2Proof.Safety Sys2Proof.Laws

theorem serveStationRun_twist (t : Twi) (s : State) : serveStationRun (staByte (twiSta t)) s = runTwist t s := by
  unfold serveStationRun
  rw [staOf_staByte]
  have : twistOf (twiSta t) = some t := by clear * -; revert t; decide
  dsimp only
  rw [this]

/-- Settles O34: the run request is answered by `runTwist`, whose checks read only what a frame's arrival leaves. -/
theorem runStartsTheTwist : Obligations.RunStartsTheTwist := by
  intro p t s hL hS i r w a started
  have harr : Arrived s a := validArrival_arrived p s
  have hsta : (a.station (twiSta t)).state = r.state := by rw [harr.station]
  have answers {code : Code} {u : State} (h : runTwist t a = (u, code, [])) (hu : Noticed a u) :
      Answers p 0x28 code [] (.stationRun p (staByte i)) s u :=
    answers_of_steered (r := .stationRun (staByte i)) hL hS rfl rfl rfl ((serveStationRun_twist t a).trans h) hu
  have hrun : startTwist t a = started a := by
    exact startTwist_arrived (harr.station _) (harr.twist _) harr.settings harr.nowMs (harr.turns _)
  refine ⟨fun h => answers (runTwist_resting (by rwa [hsta])) (.refl _), fun k hk hst => ?_, fun ht hst => ?_⟩
  · obtain ⟨hyes, hno⟩ := runTwist_strander (s := a) hk (hsta.trans hst)
    rw [harr.bobbinAt] at hyes hno
    exact ⟨fun h => answers (by rw [hyes h, hrun]; rfl) (hrun ▸ startTwist_noticed t a),
      fun h => answers (hno h) (.refl _)⟩
  · subst ht
    have hcl := runTwist_closer (s := a) (hsta.trans hst)
    rw [harr.placesMounted] at hcl
    refine ⟨fun ⟨pl, hpl, hn⟩ => answers (hcl.trans (if_neg fun hm => ?_)) (.refl _), fun hm => ?_⟩
    · obtain ⟨b, hb, hbm⟩ := feedsMounted_iff.mp hm pl hpl
      exact hn b hb hbm
    · rw [if_pos (feedsMounted_iff.mpr hm)] at hcl
      refine ⟨fun hw => ?_, fun id k l c hw hid hib hl hi hc hlt hcl' hB => ?_⟩
      · rw [runCloser_going (by rwa [harr.windingArbor])] at hcl
        exact answers (by rw [hcl, hrun]; rfl) (hrun ▸ startTwist_noticed 4 a)
      · intro coil
        have hla : HasLot a k l := harr.hasLot hl
        have hia : (a.station staC0).lot = some l.number := by rw [harr.station]; exact hi
        have hm' : ∀ j ∈ c.positions, ∃ b, a.bobbinAt (.closer j) = some b ∧ b.state = .mounted := by
          intro j hj
          rw [harr.bobbinAt]
          refine hm _ ?_
          rw [usedPlaces_closer (rope_eq_some (lotOf_eq_some hi hl) hc)]
          exact List.mem_map_of_mem hj
        have hids : IdsOk a := by unfold IdsOk; rw [harr.bobbins]; exact hB.1.2.1
        have hbegun := startCoil_eq (id := id) hla hia hc hm' hids
        rw [harr.startedCoil, harr.lots, harr.coiler, harr.meter] at hbegun
        have hfree : freeArborId a = some id := freeArborId_eq (harr.arbor id ▸ hid) (harr.coiler ▸ hib)
        rw [runCloser_starting (by rwa [harr.windingArbor]) hfree (lotOf_eq_some hia hla)
          (canStart_of_rope hla hc hlt hcl'), hbegun] at hcl
        have hstart := startTwist_arrived (t := 4) (s := s) (u := coilBegun id k l c s a) (harr.station _) (harr.twist _)
          harr.settings harr.nowMs ((turns_eq (t := 4) (coilBegun_lotOf hl hia)).trans (turns_eq (lotOf_eq_some hi hl)).symm)
        have hu : Noticed a (startTwist 4 (coilBegun id k l c s a)) := ((Noticed.of_ports (a := a) (u := coilBegun id k l c s a) rfl rfl).trans (startTwist_noticed 4 _))
        rw [hstart] at hu
        exact answers (hcl.trans (congrArg answerOk hstart)) hu

end Sys2Proof.Proofs
end

section
/-! BOBBIN_ISSUE and BOBBIN_DOFF (O39). -/

namespace Sys2Proof.Laws

open Sys2Proof.Machine Sys2Proof.Safety

/-! ## The removal of one cause (R3, R7) -/

/-- A cause but LAY_SEVERE removed on a station but K0: the record alone changes. -/
theorem removeCause_eq {i : Sta} {c : Cause} (hi : i ≠ staK0) (hc : c ≠ .laySevere) (s : State) :
    removeCause i c s =
      if hasCause (s.station i).causes c then
        writeStation i (emptied i ((s.station i).causes.del c.idx) (s.station i)) s
      else s := by
  unfold removeCause settle
  rw [dropCause_eq fun h => absurd h hc, settleOne_setStation, coilerReleased_idle]
  · rfl
  · rw [writeStation_station_ne _ _ _ _ hi.symm, State.setStation_station_ne _ _ _ _ hi.symm]

theorem stranderOf_strSta (j : Strander) : stranderOf (strSta j) = some j := by revert j; decide

/-! ## The issue (R86) -/

/-- A bobbin's record as issued to a strander for its lot. -/
def issuedBobbin (j : Strander) (l : Lot) (c : StrandLot) (b : Bobbin) : Bobbin :=
  { b with
    state := .winding, place := some (.winding j), lot := some l.number, dir := some c.dir
    fillPoint := some (min (c.fill * 1000) b.capacity), overwind := false }

/-- The start counted and the bobbin at its winding place. -/
def issued (j : Strander) (b : Bobbin) (k : Slot) (l : Lot) (c : StrandLot) (s : State) : State :=
  { s with
    lots := s.lots.set k (some { l with started := l.started + 1 })
    bobbins := withBobbin (issuedBobbin j l c b) s.bobbins }

theorem issueBobbin_eq {j : Strander} {b : Bobbin} {k : Slot} {l : Lot} {c : StrandLot} {s : State} (hl : HasLot s k l) :
    issueBobbin j b l c s =
      if hasCause (s.station (strSta j)).causes .bobbinFull then
        writeStation (strSta j) (emptied (strSta j) ((s.station (strSta j)).causes &&& 0xFDF) (s.station (strSta j)))
          (issued j b k l c s)
      else issued j b k l c s := by
  have hj : strSta j ≠ staK0 := by clear * -; revert j; decide
  have hi : issueBobbin j b l c s = removeCause (strSta j) .bobbinFull (issued j b k l c s) := by
    unfold issueBobbin addStart
    rw [modLot_of_hasLot hl]
    rfl
  rw [hi, removeCause_eq hj (by simp)]
  rfl

/-- A strander's request, once its bobbin, its lot and its winding place are in order (R86). -/
theorem serveBobbinIssue_strander {j : Strander} {n : BitVec 16} {b : Bobbin} {s : State} (hb : s.bobbin? n.toNat = some b) :
    serveBobbinIssue (staByte (strSta j)) n s =
      if b.state ≠ .spare then refuse .wrongState s
      else match s.lotOf (strSta j) with
        | none => refuse .wrongState s
        | some l =>
          if (s.bobbinAt (.winding j)).isSome then refuse .wrongState s
          else if canStart l.number s = false then refuse .lotEnd s
          else match l.build.strand? with
            | some c => answerOk (issueBobbin j b l c s)
            | none => refuse .wrongState s := by
  unfold serveBobbinIssue
  rw [staOf_staByte]
  show (match stranderOf (strSta j) with | none => _ | some i => _) = _
  rw [stranderOf_strSta]
  dsimp only
  rw [hb] <;> rfl

theorem canStart_iff {s : State} {k : Slot} {l : Lot} (hl : HasLot s k l) :
    canStart l.number s = true ↔ l.started < l.build.ordered ∧ l.state ≠ .closed := by
  unfold canStart
  rw [hasLot_lot? hl]
  simp

/-! ## The doff (R88) -/

/-- A doff of a bobbin with nothing wound withdraws its start. -/
theorem doffBobbin_empty {b : Bobbin} {k : Slot} {l : Lot} {s : State} (hn : b.lot = some l.number) (hl : HasLot s k l)
    (h : b.wound.mm = 0) :
    doffBobbin b s =
      { s with
        lots := s.lots.set k (some { l with started := l.started - 1 })
        bobbins := withBobbin
          { b with state := .spare, place := none, fillPoint := none, lot := none, dir := none, wound := .zero } s.bobbins } := by
  have hput {b' : Bobbin} : HasLot (putBobbin b' s) k l := HasLot.congr hl rfl
  unfold doffBobbin
  rw [if_neg (by omega), hn]
  show withdrawStart l.number (putBobbin _ s) = _
  unfold withdrawStart
  rw [modLot_of_hasLot hput]
  rfl

/-- A doff of a bobbin with a length on it counts it. -/
theorem doffBobbin_wound {b : Bobbin} {k : Slot} {l : Lot} {s : State} (hn : b.lot = some l.number) (hl : HasLot s k l)
    (h : 0 < b.wound.mm) :
    doffBobbin b s = counted k l b.wound.mm
      { s with bobbins := withBobbin { b with state := .full, place := none, fillPoint := none } s.bobbins } := by
  have hput {b' : Bobbin} : HasLot (putBobbin b' s) k l := HasLot.congr hl rfl
  unfold doffBobbin
  rw [if_pos h, hn]
  show countDone l.number (addProduced l.number b.wound.mm (putBobbin _ s)) = _
  rw [countDone_addProduced hput]
  rfl

theorem serveBobbinDoff_strander (j : Strander) (s : State) :
    serveBobbinDoff (staByte (strSta j)) s =
      if (s.station (strSta j)).state.twistRuns then refuse .wrongState s
      else match s.bobbinAt (.winding j) with
        | some b => if b.state = .winding then answerOk (doffBobbin b s) else refuse .noBobbin s
        | none => refuse .noBobbin s := by
  unfold serveBobbinDoff
  rw [staOf_staByte]
  show (match stranderOf (strSta j) with | none => _ | some i => _) = _
  rw [stranderOf_strSta] <;> rfl

theorem stranderOf_eq_none {i : Sta} (h : 4 ≤ i.val) : stranderOf i = none := dif_neg (by omega)

theorem counted_noticed (k : Slot) (l : Lot) (mm : Nat) (s : State) : Noticed s (counted k l mm s) := by
  unfold counted
  extract_lets l'
  split
  · exact (Noticed.of_ports (a := s) (u := s.setLot k _) rfl rfl).trans
      ((Noticed.of_notice (raise_frame ..)).trans (Noticed.of_move (raiseOnAll_move ..)))
  · exact .of_ports rfl rfl

theorem issueBobbin_noticed {j : Strander} {b : Bobbin} {k : Slot} {l : Lot} {c : StrandLot} {s : State}
    (hl : HasLot s k l) : Noticed s (issueBobbin j b l c s) := by
  have h : Noticed s (issued j b k l c s) := .of_ports rfl rfl
  rw [issueBobbin_eq hl]
  split
  · exact h.trans (writeStation_noticed ..)
  · exact h

theorem doffBobbin_noticed {b : Bobbin} {k : Slot} {l : Lot} {s : State} (hn : b.lot = some l.number) (hl : HasLot s k l) :
    Noticed s (doffBobbin b s) := by
  rcases Nat.eq_zero_or_pos b.wound.mm with h | h
  · rw [doffBobbin_empty hn hl h]
    exact .of_ports rfl rfl
  · rw [doffBobbin_wound hn hl h]
    refine Noticed.trans ?_ (counted_noticed ..)
    exact .of_ports rfl rfl

end Sys2Proof.Laws

namespace Sys2Proof.Proofs

open Sys2Proof.Machine Sys2Proof.Safety Sys2Proof.Laws

/-- Settles O39: the checks read only what a frame's arrival leaves, and the moves of the bobbin and its lot are
`issueBobbin_eq`, `doffBobbin_empty` and `doffBobbin_wound`. -/
theorem issueAndDoff : Obligations.IssueAndDoff := by
  refine ⟨fun p i n s hL hS hi => ?_, fun p j s hL hS => ?_⟩
  · have hnone (b : Byte) (h : b = staByte i) : (staOf b).bind stranderOf = none := by
      rw [h, staOf_staByte]
      exact stranderOf_eq_none hi
    refine ⟨answers_of_steered (r := .bobbinIssue (staByte i) n) hL hS rfl rfl rfl ?_ (.refl _),
      answers_of_steered (r := .bobbinDoff (staByte i)) hL hS rfl rfl rfl ?_ (.refl _)⟩
    · show serveBobbinIssue _ _ _ = _
      unfold serveBobbinIssue
      rw [hnone _ rfl]
      rfl
    · show serveBobbinDoff _ _ = _
      unfold serveBobbinDoff
      rw [hnone _ rfl]
      rfl
  · intro i r a
    have harr : Arrived s a := validArrival_arrived p s
    have issues {n : BitVec 16} {code : Code} {u : State} (h : serveBobbinIssue (staByte i) n a = (u, code, []))
        (hu : Noticed a u) : Answers p 0x32 code [] (.bobbinIssue p (staByte i) n) s u :=
      answers_of_steered (r := .bobbinIssue (staByte i) n) hL hS rfl rfl rfl h hu
    have doffs {code : Code} {u : State} (h : serveBobbinDoff (staByte i) a = (u, code, []))
        (hu : Noticed a u) : Answers p 0x33 code [] (.bobbinDoff p (staByte i)) s u :=
      answers_of_steered (r := .bobbinDoff (staByte i)) hL hS rfl rfl rfl h hu
    have hdoff := serveBobbinDoff_strander j a
    rw [harr.station, harr.bobbinAt] at hdoff
    refine ⟨fun n => ⟨fun hnone => issues ?_ (.refl _), fun b hb => ?_⟩, fun hr => doffs ?_ (.refl _), fun hr => ?_⟩
    · unfold serveBobbinIssue
      rw [staOf_staByte, harr.bobbin?, hnone]
      show (match stranderOf (strSta j) with | none => _ | some i => _) = _
      rw [stranderOf_strSta]
      rfl
    · have hserve := serveBobbinIssue_strander (j := j) ((harr.bobbin? n.toNat).trans hb)
      rw [harr.lotOf, harr.bobbinAt] at hserve
      refine ⟨fun h => issues ?_ (.refl _), fun k l c hsp hl hr hc => ?_⟩
      · rw [hserve]
        split
        · rfl
        · next hsp =>
          have hnl : s.lotOf i = none := by
            unfold State.lotOf
            rw [show (s.station i).lot = none from h.resolve_left hsp]
            rfl
          rw [show s.lotOf (strSta j) = none from hnl]
          rfl
      · rw [if_neg (not_not.mpr hsp), lotOf_eq_some hr hl] at hserve
        dsimp only at hserve
        have hla : HasLot a k l := harr.hasLot hl
        have hord : l.build.ordered = c.ordered := by rw [hc]; rfl
        refine ⟨fun ⟨x, hx⟩ => issues ?_ (.refl _), fun hno hend => issues ?_ (.refl _), fun hno hlt hcl => ?_⟩
        · rw [hserve, hx]; rfl
        · rw [hserve, hno, if_neg (by simp), if_pos]
          · rfl
          · rw [← Bool.not_eq_true, canStart_iff hla, hord]
            rintro ⟨h1, h2⟩
            exact hend.elim (by omega) h2
        · rw [hno, if_neg (by simp), if_neg, hc] at hserve
          · have hu := issueBobbin_eq (j := j) (b := b) (c := c) hla
            unfold issued at hu
            rw [harr.station, harr.lots, harr.bobbins] at hu
            have hans := issues hserve (issueBobbin_noticed hla)
            rw [hu] at hans
            exact hans
          · rw [Bool.not_eq_false, canStart_iff hla, hord]
            exact ⟨hlt, hcl⟩
    · rw [hdoff, if_pos]
      · rfl
      · rcases hr with h | h | h <;> rw [show (s.station (strSta j)).state = _ from h] <;> rfl
    · rw [if_neg] at hdoff
      · refine ⟨fun hno => doffs ?_ (.refl _), fun b k l hb hw hn hl => ?_⟩
        · rw [hdoff]
          split
          · next b hb => exact if_neg (hno b hb)
          · rfl
        · have hla : HasLot a k l := harr.hasLot hl
          rw [hb] at hdoff
          replace hdoff := hdoff.trans (if_pos hw)
          have hans := doffs hdoff (doffBobbin_noticed hn hla)
          refine ⟨fun h0 => ?_, fun hpos => ?_⟩
          · rw [doffBobbin_empty hn hla h0, harr.lots, harr.bobbins] at hans
            exact hans
          · rw [doffBobbin_wound hn hla hpos, harr.bobbins] at hans
            refine ⟨fun hopen => ?_, fun hdone hst => ?_⟩
            · rw [counted_open hopen] at hans
              unfold State.setLot at hans
              rw [harr.lots] at hans
              exact hans
            · rw [counted_complete hdone hst] at hans
              unfold State.setLot at hans
              rw [harr.lots] at hans
              exact hans
      · rcases hr with h | h | h <;> rw [show (s.station (strSta j)).state = _ from h] <;> decide

end Sys2Proof.Proofs
end

section
/-! LOT_ATTACH of a strander or a loom (O31). -/

namespace Sys2Proof.Laws

open Sys2Proof.Machine Sys2Proof.Safety

/-! ## The lot takes the station (R37) -/

theorem moveLot_of_hasLot {s : State} {k : Slot} {l : Lot} {n : Nat} (h : HasLot s k l) (hn : l.number = n)
    (st : LotState) : moveLot n st s = raise .lot (.lot n) st.word (s.setLot k (some { l with state := st })) := by
  subst hn
  unfold moveLot
  rw [modLot_of_hasLot h]

/-- The lot's record as it takes a station. -/
def joinedLot (i : Sta) (l : Lot) : Lot := { l with stations := l.stations ||| BitVec.twoPow 8 i.val, state := .active }

/-- The LOT notice of a READY lot that becomes ACTIVE. -/
def activeTold (l : Lot) (s : State) : State := if l.state = .ready then raise .lot (.lot l.number) 0x203 s else s

theorem activeTold_frame (l : Lot) (s : State) : NoticeFrame s (activeTold l s) := by
  unfold activeTold
  split
  · exact raise_frame ..
  · exact .refl s

/-- Station and lot joined, without notices. -/
def joined (i : Sta) (k : Slot) (l : Lot) (s : State) : State :=
  (s.setStation i { s.station i with lot := some l.number }).setLot k (some (joinedLot i l))

theorem zeroAcc_setLot (i : Sta) (k : Slot) (x : Option Lot) (s : State) :
    zeroAcc i (s.setLot k x) = (zeroAcc i s).setLot k x := by
  unfold zeroAcc
  split
  · rfl
  · split <;> rfl

theorem zeroAcc_lots (i : Sta) (s : State) : (zeroAcc i s).lots = s.lots := by
  unfold zeroAcc
  split
  · rfl
  · split <;> rfl

/-- The attach of a station but C0, before what is the looms' own. -/
theorem attachCore_single {i : Sta} {k : Slot} {l : Lot} {s : State} (hi : i ≠ staC0) (hl : HasLot s k l)
    (hst : l.state = .ready ∨ l.state = .active) :
    attachCore i l s =
      writeStation i { s.station i with lot := some l.number, state := .standby } (activeTold l (zeroAcc i (joined i k l s))) := by
  have hne : (i == staC0) = false := beq_eq_false_iff_ne.mpr hi
  have hla : HasLot (s.setStation i { s.station i with lot := some l.number }) k l := HasLot.congr hl rfl
  have hjoin : joinLot i l.number s =
      (s.setStation i { s.station i with lot := some l.number }).setLot k
        (some { l with stations := l.stations ||| BitVec.twoPow 8 i.val }) := by
    unfold joinLot
    rw [modLot_of_hasLot hla]
    rfl
  have hlj : HasLot (zeroAcc i (joinLot i l.number s)) k { l with stations := l.stations ||| BitVec.twoPow 8 i.val } := by
    refine HasLot.congr ?_ (zeroAcc_lots ..)
    rw [hjoin]
    exact hasLot_setLot hla rfl
  have htold : (if l.state = .ready then moveLot l.number .active (zeroAcc i (joinLot i l.number s))
      else zeroAcc i (joinLot i l.number s)) = activeTold l (zeroAcc i (joined i k l s)) := by
    unfold activeTold
    split
    · rw [moveLot_of_hasLot hlj rfl, ← zeroAcc_setLot, hjoin, setLot_setLot]
      rfl
    · next h =>
      have hact : l.state = .active := hst.resolve_left h
      have : joined i k l s = joinLot i l.number s := by
        rw [hjoin]
        unfold joined joinedLot
        rw [← hact]
      rw [this]
  have hsta : (activeTold l (zeroAcc i (joined i k l s))).station i = { s.station i with lot := some l.number } := by
    rw [(activeTold_frame ..).station, zeroAcc_station]
    exact State.setStation_station_self ..
  unfold attachCore
  rw [hne]
  dsimp only
  simp only [Bool.false_eq_true, if_false]
  rw [htold, moveTo_eq_writeStation, hsta]

/-! ## FEED_OUT at a loom's attach (R97) -/

theorem usedPlaces_loom (m : Loom) (s : State) : usedPlaces (loomSta m) s = [.feed m .upper, .feed m .lower] := by
  have h : loomOf (loomSta m) = some m := by clear * -; revert m; decide
  unfold usedPlaces
  rw [h]

/-- A place holds a RUN_OUT bobbin. -/
def holdsRunOut (s : State) (pl : Place) : Bool :=
  match s.bobbinAt pl with
  | some b => b.state == .runOut
  | none => false

theorem holdsRunOut_iff {s : State} {pl : Place} :
    holdsRunOut s pl = true ↔ ∃ b, s.bobbinAt pl = some b ∧ b.state = .runOut := by
  unfold holdsRunOut
  split <;> simp [*]

theorem feedOutAtAttach_none {m : Loom} {s : State} (h : ∀ f b, s.bobbinAt (.feed m f) = some b → b.state ≠ .runOut) :
    feedOutAtAttach (loomSta m) s = s := by
  refine if_pos (List.filter_eq_nil_iff.mpr fun pl hpl hout => ?_)
  obtain ⟨b, hb, hr⟩ := holdsRunOut_iff.mp hout
  rw [usedPlaces_loom] at hpl
  have feed {f : Feed} (e : pl = .feed m f) : False := h f b (e ▸ hb) hr
  rcases List.mem_cons.mp hpl with e | e
  · exact feed e
  · exact feed (List.mem_singleton.mp e)

/-- A loom in STANDBY with no cause is HALTED under FEED_OUT. -/
theorem feedOutAtAttach_some {m : Loom} {f : Feed} {b : Bobbin} {s : State} (hb : s.bobbinAt (.feed m f) = some b)
    (hr : b.state = .runOut) (hc : (s.station (loomSta m)).causes = 0) (hs : (s.station (loomSta m)).state = .standby) :
    NoticeFrame (s.setStation (loomSta m) { s.station (loomSta m) with state := .halted, causes := 0x040 })
      (feedOutAtAttach (loomSta m) s) := by
  have hin : Place.feed m f ∈ (usedPlaces (loomSta m) s).filter (holdsRunOut s) := by
    refine List.mem_filter.mpr ⟨?_, holdsRunOut_iff.mpr ⟨b, hb, hr⟩⟩
    rw [usedPlaces_loom]
    cases f <;> simp
  have hk : loomSta m ≠ staK0 ∧ Cause.feedOut.admissible (kindOf (loomSta m)) = true := by clear * -; revert m; decide
  have hno : s.has (loomSta m) .feedOut = false := by unfold State.has; rw [hc]; decide
  have hraise : NoticeFrame (s.setStation (loomSta m) { s.station (loomSta m) with state := .halted, causes := 0x040 })
      (raiseCause (loomSta m) .feedOut s) := by
    rw [raiseCause_eq_raiseOne _ _ _ hk.1, raiseOne_rest hk.2 hno (.inl hs)]
    have hrec : { withCause .feedOut s (s.station (loomSta m)) with state := .halted } =
        { s.station (loomSta m) with state := .halted, causes := 0x040 } := by
      unfold withCause
      rw [hc]
      rfl
    rw [hrec]
    refine (raise_frame .fault (.station (loomSta m)) Cause.feedOut.word _).trans ?_
    rw [raise_setStation (by rfl)]
    exact writeStation_frame ..
  unfold feedOutAtAttach
  extract_lets r out
  rw [if_neg (show ¬out = [] from List.ne_nil_of_mem hin)]
  exact hraise.trans (foldl_frame (F := NoticeFrame) .refl .trans _ (fun _ _ => raise_frame ..) _ _)

/-- A station's record written, with notices after it. -/
theorem stations_of_frame {u v : State} {i : Sta} {r : Station} (h : NoticeFrame (u.setStation i r) v) :
    v = { u with stations := v.stations, ports := v.ports, queues := v.queues } ∧ v.stations = u.stations.set i r := by
  constructor <;> rw [h.1] <;> rfl

/-! ## The request (R36) -/

theorem serveLotAttach_eq (i : Sta) (n : BitVec 16) (s : State) :
    serveLotAttach (staByte i) n s =
      if (s.station i).state ≠ .idle then refuse .wrongState s
      else match s.lot? n.toNat with
        | none => refuse .notFound s
        | some l =>
          if l.state ≠ .ready ∧ l.state ≠ .active then refuse .wrongState s
          else if l.build.fits (kindOf i) = false then refuse .wrongLot s
          else if i = staC0 ∧ (s.station staK0).state ≠ .idle then refuse .wrongState s
          else if foreignBobbin i l.build s then refuse .wrongLot s
          else answerOk (attachLot i l s) := by
  unfold serveLotAttach
  rw [staOf_staByte] <;> rfl

/-- A lot that fits a station other than C0 is refused for a bobbin of another strand lot alone. -/
theorem serveLotAttach_fits {i : Sta} {n : BitVec 16} {k : Slot} {l : Lot} {s : State} (hs : (s.station i).state = .idle)
    (hl : HasLot s k l) (hn : l.number = n.toNat) (hst : l.state = .ready ∨ l.state = .active)
    (hfit : l.build.fits (kindOf i) = true) (hi : i ≠ staC0) :
    serveLotAttach (staByte i) n s =
      if foreignBobbin i l.build s then refuse .wrongLot s else answerOk (attachLot i l s) := by
  rw [serveLotAttach_eq, if_neg (not_not.mpr hs), ← hn, hasLot_lot? hl]
  dsimp only
  rw [if_neg (fun h => hst.elim h.1 h.2), hfit, if_neg (by simp), if_neg (fun h => hi h.1)]

theorem foreignBobbin_strander {t : Twi} (ht : t ≠ 4) (c : Build) (s : State) : foreignBobbin (twiSta t) c s = false := by
  have h : placesOf (twiSta t) = [] := by revert t; decide
  unfold foreignBobbin
  rw [h]
  rfl

theorem foreignBobbin_loom {m : Loom} {c : NetLot} {s : State} :
    foreignBobbin (loomSta m) (.net c) s = true ↔ ∃ f b, s.bobbinAt (.feed m f) = some b ∧ b.lot ≠ some c.strandLot := by
  have hp : placesOf (loomSta m) = [.feed m .upper, .feed m .lower] := by clear * -; revert m; decide
  have hc : (loomSta m == staC0) = false := by clear * -; revert m; decide
  have hmem (pl : Place) : pl ∈ placesOf (loomSta m) ↔ ∃ f, pl = .feed m f := by
    rw [hp]
    refine ⟨fun h => ?_, fun ⟨f, h⟩ => ?_⟩
    · rcases List.mem_cons.mp h with h | h
      · exact ⟨.upper, h⟩
      · exact ⟨.lower, List.mem_singleton.mp h⟩
    · cases f <;> simp [h]
  unfold foreignBobbin
  rw [List.any_eq_true, hc]
  refine ⟨fun ⟨pl, hpl, h⟩ => ?_, fun ⟨f, b, hb, hne⟩ => ⟨_, (hmem _).mpr ⟨f, rfl⟩, ?_⟩⟩
  · obtain ⟨f, rfl⟩ := (hmem pl).mp hpl
    split at h
    · next b hb => exact ⟨f, b, hb, by simpa [Build.strandLot] using h⟩
    · cases h
  · rw [hb]
    simpa [Build.strandLot] using hne

theorem attachLot_strander {t : Twi} (ht : t ≠ 4) (l : Lot) (s : State) :
    attachLot (twiSta t) l s = attachCore (twiSta t) l s := by
  have h : loomOf (twiSta t) = none ∧ (twiSta t == staC0) = false := by revert t; decide
  rw [attachLot_eq, h.1, h.2]
  rfl

theorem attachLot_loom {m : Loom} {l : Lot} {c : NetLot} (hc : l.build = .net c) (s : State) :
    attachLot (loomSta m) l s = feedOutAtAttach (loomSta m) (attachLoom m c (attachCore (loomSta m) l s)) := by
  have h : loomOf (loomSta m) = some m := by clear * -; revert m; decide
  rw [attachLot_eq, h, hc]

theorem clampNat_zero (top v : Nat) : clampNat 0 top v = min v top := by
  rcases Nat.lt_or_ge top v with h | h
  · rw [Nat.min_eq_right h.le]
    exact if_pos h
  · rw [Nat.min_eq_left h]
    exact if_neg (Nat.not_lt.mpr h)

/-- A loom's position at the head of the plan of its lot (R124). -/
theorem attachLoom_eq {m : Loom} {c : NetLot} {s : State} {p : Settings} (hs : s.settings = p) :
    attachLoom m c s = s.setLoom m
      { inPanel := false, endPending := false, segment := c.head, rowIn := 1, row := 1
        first := min c.first (p.needles[m] - 1), last := min c.last (p.needles[m] - 1), clampNoted := false, panel := 0
        openRow := false, lastTaken := none, lastAnswer := none, shortfall := ⟨0, 0⟩, faults := [], overflow := false } := by
  subst hs
  unfold attachLoom modLoom LoomPos.atHead State.needles
  rw [clampNat_zero, clampNat_zero]
  rfl

theorem attachLoom_noticed (m : Loom) (c : NetLot) (s : State) : Noticed s (attachLoom m c s) := .of_ports rfl rfl

theorem feedOutAtAttach_noticed (i : Sta) (s : State) : Noticed s (feedOutAtAttach i s) := by
  unfold feedOutAtAttach
  extract_lets out
  split
  · exact .refl s
  · exact (Noticed.of_move (raiseCause_move ..)).trans
      (.of_notice (foldl_frame (F := NoticeFrame) .refl .trans _ (fun _ _ => raise_frame ..) _ _))

theorem attachCore_noticed {i : Sta} {k : Slot} {l : Lot} {s : State} (hi : i ≠ staC0) (hl : HasLot s k l)
    (hst : l.state = .ready ∨ l.state = .active) : Noticed s (attachCore i l s) := by
  have hz : Noticed s (zeroAcc i (joined i k l s)) := by
    unfold zeroAcc
    split
    · exact .of_ports rfl rfl
    · split <;> exact .of_ports rfl rfl
  rw [attachCore_single hi hl hst]
  exact hz.trans ((Noticed.of_notice (activeTold_frame ..)).trans (writeStation_noticed ..))

end Sys2Proof.Laws

namespace Sys2Proof.Proofs

open Sys2Proof.Machine Sys2Proof.Safety Sys2Proof.Laws

/-- Settles O31: an attach is `attachCore_single`, and on a loom `attachLoom` and `feedOutAtAttach` after it. -/
theorem attachGivesAStationItsLot : Obligations.AttachGivesAStationItsLot := by
  have answers {p : Port} {i : Sta} {n : BitVec 16} {s : State} (hL : Listens p s) (hS : Steers p i s) {code : Code}
      {u : State} (h : serveLotAttach (staByte i) n (validArrival p s) = (u, code, [])) (hu : Noticed (validArrival p s) u) :
      Answers p 0x1A code [] (.lotAttach p (staByte i) n) s u :=
    answers_of_steered (r := .lotAttach (staByte i) n) hL hS rfl rfl rfl h hu
  refine ⟨fun p i n s hL hS => ?_, fun p i n k l s hL hS hidle hl hn hst => ?_⟩
  · have harr := validArrival_arrived p s
    have hserve := serveLotAttach_eq i n (validArrival p s)
    rw [harr.station, harr.lot?] at hserve
    refine ⟨fun h => answers hL hS (hserve.trans (if_pos h)) (.refl _), fun h hnone => answers hL hS ?_ (.refl _),
      fun k l h hl hn hr ha => answers hL hS ?_ (.refl _)⟩
    · rw [hserve, if_neg (not_not.mpr h), hnone]
      rfl
    · rw [hserve, if_neg (not_not.mpr h), ← hn, hasLot_lot? hl]
      exact if_pos ⟨hr, ha⟩
  · intro a r joined told
    have harr : Arrived s a := validArrival_arrived p s
    have hla : HasLot a k l := harr.hasLot hl
    have hidle' : (a.station i).state = .idle := by rw [harr.station, hidle]
    have hjoined : Laws.joined i k l a = joined := by
      unfold Laws.joined
      rw [harr.station, hn]
      rfl
    refine ⟨fun t c hi ht hc => ?_, fun m c hi hc => ?_, fun hfit => answers hL hS ?_ (.refl _)⟩
    · have hi4 : i ≠ staC0 ∧ kindOf i = .strander := by rw [hi]; clear * - ht; revert t; decide
      have htw : zeroAcc i (Laws.joined i k l a) = joined.setTwist t { s.twist t with acc := .zero } := by
        have h : twistOf (twiSta t) = some t := by clear * -; revert t; decide
        rw [hi]
        unfold zeroAcc
        rw [h]
        show (Laws.joined (twiSta t) k l a).setTwist t { (Laws.joined (twiSta t) k l a).twist t with acc := .zero } = _
        rw [← hi, hjoined]
        show joined.setTwist t { a.twist t with acc := .zero } = _
        rw [harr.twist]
      have hserve := serveLotAttach_fits hidle' hla hn hst (by rw [hc, hi4.2]; rfl) hi4.1
      have hnot := attachCore_noticed (i := i) hi4.1 hla hst
      have hcore := attachCore_single hi4.1 hla hst
      unfold activeTold at hcore
      rw [htw, harr.station, hn] at hcore
      rw [hi, foreignBobbin_strander ht, if_neg (by simp), attachLot_strander ht, ← hi] at hserve
      have hans := answers hL hS hserve hnot
      rw [hcore] at hans
      exact hans
    · have him : i ≠ staC0 ∧ kindOf i = .loom := by rw [hi]; clear * -; revert m; decide
      have hserve := serveLotAttach_fits hidle' hla hn hst (by rw [hc, him.2]; rfl) him.1
      have hcore := attachCore_single him.1 hla hst
      have htw : zeroAcc i (Laws.joined i k l a) = joined := by
        have h : twistOf (loomSta m) = none ∧ loomSta m ≠ staK0 := by clear * -; revert m; decide
        rw [hi]
        unfold zeroAcc
        rw [h.1]
        dsimp only
        rw [if_neg h.2]
        rw [← hi, hjoined]
      unfold activeTold at hcore
      rw [htw, harr.station, hn] at hcore
      have hnot := attachCore_noticed (i := i) him.1 hla hst
      have hnoted := hnot.trans ((attachLoom_noticed m c _).trans (feedOutAtAttach_noticed i _))
      rw [hc, hi, attachLot_loom hc, ← hi] at hserve
      refine ⟨fun hex => answers hL hS (hserve.trans (if_pos ?_)) (.refl _), fun hall => ?_⟩
      · rw [hi, foreignBobbin_loom]
        simpa only [harr.bobbinAt] using hex
      · intro top u
        have hframe := writeStation_frame i { r with state := .standby } (told joined)
        have htold : NoticeFrame joined (told joined) := by
          dsimp only [told]
          split
          · exact raise_frame ..
          · exact .refl _
        have hset : (writeStation i { r with state := .standby } (told joined)).settings = s.settings :=
          hframe.settings.trans (htold.settings.trans harr.settings)
        have hbobs : u.bobbins = s.bobbins := hframe.bobbins.trans (htold.bobbins.trans harr.bobbins)
        rw [if_neg] at hserve
        · have hu : attachLoom m c (attachCore i l a) = u := by
            rw [hcore, attachLoom_eq hset]
          rw [hu] at hserve hnoted
          have hbob (pl : Place) : u.bobbinAt pl = s.bobbinAt pl := bobbinAt_congr hbobs pl
          have hsta : u.station i = { r with state := .standby } := writeStation_station ..
          have hans := answers hL hS hserve hnoted
          refine ⟨fun hno => ?_, fun f b hb hr hcz => ⟨_, hans, ?_⟩⟩
          · rw [hi, feedOutAtAttach_none (by simpa only [hbob] using hno), ← hi] at hans
            exact hans
          · have hf := feedOutAtAttach_some (m := m) (s := u) ((hbob _).trans hb) hr (by rw [← hi, hsta]; exact hcz)
              (by rw [← hi, hsta])
            rw [← hi, hsta] at hf
            exact stations_of_frame hf
        · rw [hi, foreignBobbin_loom]
          simp only [harr.bobbinAt]
          rintro ⟨f, b, hb, hne⟩
          exact hne (hall f b hb)
    · rw [serveLotAttach_eq, if_neg (not_not.mpr hidle'), ← hn, hasLot_lot? hla]
      dsimp only
      rw [if_neg (fun h => hst.elim h.1 h.2), if_pos hfit]
      rfl

end Sys2Proof.Proofs
end

section
/-! LOT_DETACH (O33). -/

namespace Sys2Proof.Laws

open Sys2Proof.Machine Sys2Proof.Safety

/-! ## The station loses its lot (R3, R38) -/

/-- A station's record without its lot and its conditional causes. -/
def goneFrom (r : Station) : Station :=
  { r with
    lot := none, causes := r.causes &&& 0x01F
    state := if r.causes &&& 0x01F = 0 then RunState.idle else .halted }

theorem without_conditional (x : BitSet 12) : without conditional x = x &&& 0x01F := by
  simp only [without, conditional, List.foldl, BitSet.del, BitVec.and_assoc]
  rfl

theorem leaveLot_eq (i : Sta) (s : State) : leaveLot i s = writeStation i (goneFrom (s.station i)) s := by
  unfold leaveLot
  rw [dropAll_eq conditional s fun h => absurd h (by decide), without_conditional]
  dsimp only
  rw [State.setStation_station_self, setStation_setStation, State.setStation_station_self,
    moveTo_setStation (r := { s.station i with causes := (s.station i).causes &&& 0x01F, lot := none }) _ rfl]
  rfl

theorem writeStation_setMeter (i : Sta) (r : Station) (s : State) (m : Meter) :
    writeStation i r (s.setMeter m) = (writeStation i r s).setMeter m := by
  have h : (s.setMeter m).setStation i r = (s.setStation i r).setMeter m := rfl
  have hs : (s.setMeter m).station i = s.station i := rfl
  unfold writeStation
  rw [h, hs, raise_setMeter]
  split <;> rfl

/-! ## The lot loses the station (R38, R39) -/

/-- What a lot's slot and its notice are when the stations `set` leave it. -/
def lotLeft (k : Slot) (set : BitSet 8) (l : Lot) (s : State) : State :=
  if l.state = .active ∧ l.stations &&& ~~~set = 0 then
    raise .lot (.lot l.number) 0x202 (s.setLot k (some { l with stations := l.stations &&& ~~~set, state := .ready }))
  else s.setLot k (some { l with stations := l.stations &&& ~~~set })

theorem readyIfLeft_setLot {s : State} {k : Slot} {l : Lot} {set : BitSet 8} (hl : HasLot s k l) :
    readyIfLeft l.number (s.setLot k (some { l with stations := l.stations &&& ~~~set })) = lotLeft k set l s := by
  have hl' : HasLot (s.setLot k (some { l with stations := l.stations &&& ~~~set })) k
      { l with stations := l.stations &&& ~~~set } := hasLot_setLot hl rfl
  have hfind : (s.setLot k (some { l with stations := l.stations &&& ~~~set })).lot? l.number =
      some { l with stations := l.stations &&& ~~~set } := hasLot_lot? hl'
  unfold readyIfLeft lotLeft
  rw [hfind]
  dsimp only
  split
  · rw [moveLot_of_hasLot hl' rfl, setLot_setLot]
    rfl
  · rfl

theorem lotLosesStation_eq {s : State} {k : Slot} {l : Lot} (hl : HasLot s k l) (i : Sta) :
    lotLosesStation l.number i s = s.setLot k (some { l with stations := l.stations &&& ~~~(BitVec.twoPow 8 i.val) }) := by
  unfold lotLosesStation
  rw [modLot_of_hasLot hl]
  rfl

/-- The stations C0 and K0 leave a lot together (R39). -/
theorem lotLosesStation_pair {s : State} {k : Slot} {l : Lot} (hl : HasLot s k l) :
    lotLosesStation l.number staK0 (lotLosesStation l.number staC0 s) =
      s.setLot k (some { l with stations := l.stations &&& ~~~0x90 }) := by
  have hl' : HasLot (s.setLot k (some { l with stations := l.stations &&& ~~~(BitVec.twoPow 8 staC0.val) })) k
      { l with stations := l.stations &&& ~~~(BitVec.twoPow 8 staC0.val) } := hasLot_setLot hl rfl
  rw [lotLosesStation_eq hl]
  refine (lotLosesStation_eq hl' staK0).trans ?_
  rw [setLot_setLot]
  dsimp only
  rw [BitVec.and_assoc]
  rfl

theorem lotLeft_station (k : Slot) (set : BitSet 8) (l : Lot) (s : State) (j : Sta) :
    (lotLeft k set l s).station j = s.station j := by
  unfold lotLeft
  split
  · exact (raise_frame ..).station j
  · rfl

theorem lotLeft_meter (k : Slot) (set : BitSet 8) (l : Lot) (s : State) : (lotLeft k set l s).meter = s.meter := by
  unfold lotLeft
  split
  · exact (raise_frame ..).meter
  · rfl

theorem lotLeft_noticed (k : Slot) (set : BitSet 8) (l : Lot) (s : State) : Noticed s (lotLeft k set l s) := by
  unfold lotLeft
  split
  · refine Noticed.trans ?_ (.of_notice (raise_frame ..))
    exact .of_ports rfl rfl
  · exact .of_ports rfl rfl

/-! ## A panel in progress (R121, R124) -/

theorem rejectPanel_eq {s : State} {m : Loom} {k : Slot} {l : Lot} (hl : HasLot s k l)
    (hi : (s.station (loomSta m)).lot = some l.number) :
    rejectPanel m s =
      raise .row (.station (loomSta m)) 0x601
        ((s.setLoom m { s.loom m with inPanel := false, endPending := false }).setLot k
          (some { l with started := l.started - 1, rejected := min 255 (l.rejected + 1) })) := by
  have hn : s.loomLot m = l.number := by unfold State.loomLot; rw [hi]; rfl
  have hl₁ : HasLot (s.setLoom m { s.loom m with inPanel := false, endPending := false }) k l := HasLot.congr hl rfl
  have hl₂ : HasLot ((s.setLoom m { s.loom m with inPanel := false, endPending := false }).setLot k
      (some { l with started := l.started - 1 })) k { l with started := l.started - 1 } := hasLot_setLot hl₁ rfl
  have hw : withdrawStart l.number (s.setLoom m { s.loom m with inPanel := false, endPending := false }) =
      (s.setLoom m { s.loom m with inPanel := false, endPending := false }).setLot k
        (some { l with started := l.started - 1 }) := modLot_of_hasLot hl₁ _
  unfold rejectPanel modLoom
  rw [hn]
  dsimp only
  rw [hw]
  exact congrArg (raise _ _ _) ((modLot_of_hasLot hl₂ _).trans (setLot_setLot ..))

/-! ## The request (R38) -/

theorem stranderOf_eq_some {i : Sta} {j : Strander} : stranderOf i = some j ↔ strSta j = i := by revert i j; decide

theorem isFree_iff {x : Arbor} : x.isFree = true ↔ x = .free := by cases x <;> simp [Arbor.isFree]

theorem detachRefused_iff {i : Sta} {s : State} :
    detachRefused i s = true ↔
      (s.station i).lot = none ∨ i = staK0 ∨ stationRuns i s = true ∨ (i = staC0 ∧ ¬(s.coiler.a = .free ∧ s.coiler.b = .free)) ∨
        ∃ (j : Strander) (b : Bobbin), strSta j = i ∧ s.bobbinAt (.winding j) = some b ∧ b.state = .winding := by
  have hwind : (match stranderOf i with
      | some k => match s.bobbinAt (.winding k) with | some b => b.state == .winding | none => false
      | none => false) = true ↔
      ∃ (j : Strander) (b : Bobbin), strSta j = i ∧ s.bobbinAt (.winding j) = some b ∧ b.state = .winding := by
    simp only [← stranderOf_eq_some]
    cases stranderOf i with
    | none => simp
    | some j =>
      cases hb : s.bobbinAt (.winding j) with
      | none => simp [hb]
      | some b => simp [hb]
  unfold detachRefused
  simp only [Bool.or_eq_true, Option.isNone_iff_eq_none, beq_iff_eq, Bool.and_eq_true, Bool.not_eq_true', or_assoc,
    ← Bool.not_eq_true, isFree_iff]
  rw [← hwind] <;> rfl

theorem strSta_injective {j j' : Strander} (h : strSta j = strSta j') : j = j' := by revert j j'; decide

theorem serveLotDetach_eq (i : Sta) (s : State) :
    serveLotDetach (staByte i) s =
      match (s.station i).lot with
      | some n => if detachRefused i s then refuse .wrongState s else answerOk (detachLot i n s)
      | none => refuse .wrongState s := by
  unfold serveLotDetach
  rw [staOf_staByte] <;> rfl

/-- A station but C0 leaves its lot, once a panel in progress has ended. -/
theorem leave_single {i : Sta} {k : Slot} {l : Lot} {s : State} (hl : HasLot s k l) :
    leaveLot i (readyIfLeft l.number (lotLosesStation l.number i s)) =
      writeStation i (goneFrom (s.station i)) (lotLeft k (BitVec.twoPow 8 i.val) l s) := by
  rw [lotLosesStation_eq hl, readyIfLeft_setLot hl, leaveLot_eq, lotLeft_station]

theorem detachLot_strander {j : Strander} {k : Slot} {l : Lot} {s : State} (hl : HasLot s k l) :
    detachLot (strSta j) l.number s =
      writeStation (strSta j) (goneFrom (s.station (strSta j))) (lotLeft k (BitVec.twoPow 8 (strSta j).val) l s) := by
  have h : loomOf (strSta j) = none ∧ strSta j ≠ staC0 := by clear * -; revert j; decide
  unfold detachLot
  rw [h.1]
  dsimp only
  rw [if_neg h.2, leave_single hl]

theorem detachLot_loom {m : Loom} (n : Nat) (s : State) :
    detachLot (loomSta m) n s =
      leaveLot (loomSta m) (readyIfLeft n (lotLosesStation n (loomSta m) (detachLoom m s))) := by
  have h : loomOf (loomSta m) = some m ∧ loomSta m ≠ staC0 := by clear * -; revert m; decide
  unfold detachLot
  rw [h.1]
  dsimp only
  rw [if_neg h.2]

theorem detachLot_closer {k : Slot} {l : Lot} {s : State} (hl : HasLot s k l) :
    detachLot staC0 l.number s =
      writeStation staK0 (goneFrom (s.station staK0)) (writeStation staC0 (goneFrom (s.station staC0))
        ((lotLeft k 0x90 l s).setMeter { s.meter with slipOpen := false, winCap := 0, winWheel := 0 })) := by
  have hmeter : (writeStation staK0 (goneFrom (s.station staK0)) (writeStation staC0 (goneFrom (s.station staC0))
      (lotLeft k 0x90 l s))).meter = s.meter := by
    rw [(writeStation_frame ..).meter]
    exact (writeStation_frame ..).meter.trans (lotLeft_meter ..)
  unfold detachLot
  rw [show loomOf staC0 = none from rfl]
  dsimp only
  rw [if_pos rfl, lotLosesStation_pair hl, readyIfLeft_setLot hl, leaveLot_eq, leaveLot_eq,
    writeStation_station_ne _ _ _ _ (by decide), lotLeft_station, lotLeft_station]
  unfold discardSlip
  rw [hmeter, writeStation_setMeter, writeStation_setMeter]

theorem pair_noticed {s u : State} {i j : Sta} {q r : Station} {m : Meter} (h : Noticed s u) :
    Noticed s (writeStation i q (writeStation j r (u.setMeter m))) := by
  have hm : Noticed u (u.setMeter m) := .of_ports rfl rfl
  exact (h.trans hm).trans ((writeStation_noticed ..).trans (writeStation_noticed ..))

end Sys2Proof.Laws

namespace Sys2Proof.Proofs

open Sys2Proof.Machine Sys2Proof.Safety Sys2Proof.Laws

/-- Settles O33: what a detach leaves is `detachLot_strander`, `detachLot_loom` and `detachLot_closer`. -/
theorem detachTakesTheLotAway : Obligations.DetachTakesTheLotAway := by
  have answers {p : Port} {i : Sta} {s : State} (hL : Listens p s) (hS : Steers p i s) {code : Code} {u : State}
      (h : serveLotDetach (staByte i) (validArrival p s) = (u, code, [])) (hu : Noticed (validArrival p s) u) :
      Answers p 0x1B code [] (.lotDetach p (staByte i)) s u :=
    answers_of_steered (r := .lotDetach (staByte i)) hL hS rfl rfl rfl h hu
  refine ⟨fun p i s hL hS hno => ?_, fun p i k l s hL hS hlot hl => ?_⟩
  · refine answers hL hS ?_ (.refl _)
    rw [serveLotDetach_eq, (validArrival_arrived p s).station, hno]
    rfl
  · intro a gone lose
    have harr : Arrived s a := validArrival_arrived p s
    have hla : HasLot a k l := harr.hasLot hl
    have hserve := serveLotDetach_eq i a
    rw [harr.station, hlot] at hserve
    dsimp only at hserve
    have hruns : stationRuns i a = stationRuns i s := by rw [harr]; rfl
    have hrefused := detachRefused_iff (i := i) (s := a)
    rw [harr.station, hlot, hruns, harr.coiler] at hrefused
    simp only [harr.bobbinAt] at hrefused
    refine ⟨fun h => answers hL hS (hserve.trans (if_pos (hrefused.mpr (.inr ?_)))) (.refl _), fun hstill => ?_⟩
    · tauto
    · have goes (hK : i ≠ staK0) (hC : i = staC0 → s.coiler.a = .free ∧ s.coiler.b = .free)
          (hW : ∀ j, strSta j = i → ∀ b, s.bobbinAt (.winding j) = some b → b.state ≠ .winding) :
          serveLotDetach (staByte i) a = answerOk (detachLot i l.number a) := by
        refine hserve.trans (if_neg fun h => ?_)
        rcases hrefused.mp h with h | h | h | ⟨h, h'⟩ | ⟨j, b, hj, hb, hw⟩
        · cases h
        · exact hK h
        · rw [hstill] at h; cases h
        · exact h' (hC h)
        · exact hW j hj b hb hw
      have goes_loom (m : Loom) (hm : loomSta m = i) : serveLotDetach (staByte i) a = answerOk (detachLot i l.number a) := by
        have h : loomSta m ≠ staK0 ∧ loomSta m ≠ staC0 ∧ ∀ j, strSta j ≠ loomSta m := by clear * -; revert m; decide
        subst hm
        exact goes h.1 (fun e => absurd e h.2.1) fun j hj => absurd hj (h.2.2 j)
      refine ⟨fun j hj hW => ?_, fun m hm hp => ?_, fun m hm hp => ?_, fun hi ha hb => ?_⟩
      · subst hj
        have hj : strSta j ≠ staK0 ∧ strSta j ≠ staC0 := by clear * -; revert j; decide
        have hserve := goes hj.1 (fun h => absurd h hj.2) (fun j' hj' => strSta_injective hj' ▸ hW)
        rw [detachLot_strander hla, harr.station] at hserve
        exact answers hL hS hserve ((lotLeft_noticed ..).trans (writeStation_noticed ..))
      · subst hm
        have hserve := goes_loom m rfl
        have hdet : detachLoom m a = a := if_neg (by rw [harr.loom, hp]; decide)
        rw [detachLot_loom, hdet, leave_single hla, harr.station] at hserve
        exact answers hL hS hserve ((lotLeft_noticed ..).trans (writeStation_noticed ..))
      · subst hm
        intro q
        have hserve := goes_loom m rfl
        have hdet : detachLoom m a = raise .row (.station (loomSta m)) 0x601
            ((a.setLoom m { s.loom m with inPanel := false, endPending := false }).setLot k (some q)) := by
          rw [← harr.loom]
          exact (if_pos ((harr.loom m).symm ▸ hp)).trans (rejectPanel_eq hla (by rw [harr.station, hlot]))
        have hnot : Noticed a (detachLoom m a) := by
          rw [hdet]
          refine Noticed.trans ?_ (.of_notice (raise_frame ..))
          exact .of_ports rfl rfl
        have hlq : HasLot (detachLoom m a) k q := by
          rw [hdet]
          exact HasLot.congr (hasLot_setLot (l' := q) (HasLot.congr hla rfl) rfl) (raise_frame ..).lots
        have hsta : (detachLoom m a).station (loomSta m) = s.station (loomSta m) := by
          rw [hdet, (raise_frame ..).station]
          exact harr.station _
        have hleave := leave_single (i := loomSta m) hlq
        rw [hsta] at hleave
        rw [detachLot_loom] at hserve
        have hans := answers hL hS (hserve.trans (congrArg answerOk hleave))
          (hnot.trans ((lotLeft_noticed ..).trans (writeStation_noticed ..)))
        rw [hdet] at hans
        exact hans
      · subst hi
        have hserve := goes (by decide) (fun _ => ⟨ha, hb⟩) (fun j hj => absurd hj (by clear * -; revert j; decide))
        rw [detachLot_closer hla, harr.station, harr.station, harr.meter] at hserve
        exact answers hL hS hserve (pair_noticed (lotLeft_noticed ..))

end Sys2Proof.Proofs
end

section
/-! Flyer edges and the close of a window (O19). -/

namespace Sys2Proof.Laws

open Sys2Proof.Machine Sys2Proof.Safety

/-! ## The edge, and the window it closes (R21, R49, R50) -/

/-- A twisting station's own fields after a FLY edge, before its window. -/
def flown (t : Twi) (s : State) : Twist := { s.twist t with stillMs := some s.nowMs, still := false }

/-- The measuring context of a window just closed (R53 to R55). -/
def shut (l : Lay) (target n : Nat) : Lay :=
  let e := errorOf (layOf l.dl n) target
  { l.discard with
    lastLay := some (layOf l.dl n), lastE := some e, f := some (filterOf l.seedPending l.f e), seedPending := false }

theorem modLay_setTwist (t : Twi) (f : Lay → Lay) (s : State) (w : Twist) :
    modLay t f (s.setTwist t w) = s.setTwist t { w with lay := f w.lay } := by
  unfold modLay
  rw [State.setTwist_twist_self, setTwist_setTwist]

theorem flyEdge_eq (t : Twi) (s : State) :
    flyEdge t s =
      if (s.twist t).lay.isOpen then
        if (s.twist t).lay.closeCount ≤ (s.twist t).lay.p + 1 then
          closeWindow t (s.setTwist t { flown t s with lay := { (s.twist t).lay with p := (s.twist t).lay.p + 1 } })
        else s.setTwist t { flown t s with lay := { (s.twist t).lay with p := (s.twist t).lay.p + 1 } }
      else s.setTwist t (flown t s) := by
  have hw : (s.setTwist t (flown t s)).twist t = flown t s := State.setTwist_twist_self ..
  show layFly t (s.setTwist t (flown t s)) = _
  unfold layFly
  rw [hw, modLay_setTwist]
  rfl

/-- What a close does after its arithmetic, by the state of the station (R56 to R59). -/
def classified (t : Twi) (e f : Int) (tol : Nat) (st : RunState) (s : State) : State :=
  if st = .runUp then closeRunUp t e tol s else if st = .steady then closeSteady t e f tol s else s

/-- The error of a window, and its filtered error. -/
def windowError (l : Lay) (target n : Nat) : Int := errorOf (layOf l.dl n) target
def windowFiltered (l : Lay) (target n : Nat) : Int := filterOf l.seedPending l.f (windowError l target n)

theorem closeWindow_eq {t : Twi} {s : State} {w : Twist} {target tol n : Nat} (hterms : s.layTerms t = some (target, tol, n)) :
    closeWindow t (s.setTwist t w) =
      reopen t (classified t (windowError w.lay target n) (windowFiltered w.lay target n) tol (s.station (twiSta t)).state
        (s.setTwist t { w with lay := shut w.lay target n })) := by
  have hterms' : (s.setTwist t w).layTerms t = some (target, tol, n) := hterms
  unfold closeWindow
  rw [hterms']
  dsimp only
  rw [modLay_setTwist, State.setTwist_twist_self]
  rfl

theorem flyEdge_closes {t : Twi} {s : State} {target tol n : Nat} (h : (s.twist t).lay.isOpen = true)
    (hp : (s.twist t).lay.closeCount ≤ (s.twist t).lay.p + 1) (hterms : s.layTerms t = some (target, tol, n)) :
    flyEdge t s = reopen t (classified t (windowError (s.twist t).lay target n) (windowFiltered (s.twist t).lay target n) tol
      (s.station (twiSta t)).state (s.setTwist t { flown t s with lay := shut (s.twist t).lay target n })) := by
  rw [flyEdge_eq, if_pos h, if_pos hp, closeWindow_eq hterms]
  rfl

/-- A running station's window opens again (R50). -/
theorem reopen_turning {t : Twi} {s : State} (h : (s.station (twiSta t)).state = .runUp ∨ (s.station (twiSta t)).state = .steady) :
    reopen t s = s.setTwist t
      { s.twist t with lay := { (s.twist t).lay with isOpen := true, p := 0, dl := 0, openMs := s.nowMs } } := by
  refine if_pos ?_
  unfold State.turning
  rcases h with h | h <;> rw [h] <;> rfl

theorem reopen_setTwist {t : Twi} {s : State} {w : Twist}
    (h : (s.station (twiSta t)).state = .runUp ∨ (s.station (twiSta t)).state = .steady) :
    reopen t (s.setTwist t w) =
      s.setTwist t { w with lay := { w.lay with isOpen := true, p := 0, dl := 0, openMs := s.nowMs } } := by
  rw [reopen_turning (s := s.setTwist t w) h, State.setTwist_twist_self, setTwist_setTwist]
  rfl

theorem reopen_still {t : Twi} {s : State} (h : (s.station (twiSta t)).state = .runDown) : reopen t s = s := by
  refine if_neg ?_
  unfold State.turning
  rw [h]
  decide

/-! ## A close in STEADY (R57 to R60) -/

/-- The coiler after a close supplies its statistics (R60). -/
def layCoiled (t : Twi) (f : Int) (drifted : Bool) (s : State) : Coiler := (supplyLayStat t f drifted s).coiler

theorem supplyLayStat_setTwist (t : Twi) (f : Int) (drifted : Bool) (s : State) (w : Twist) :
    supplyLayStat t f drifted (s.setTwist t w) = (s.setTwist t w).setCoiler (layCoiled t f drifted s) := by
  have hw : (s.setTwist t w).windingArbor = s.windingArbor := rfl
  unfold layCoiled supplyLayStat
  rw [hw]
  split
  · cases s.windingArbor with
    | none => rfl
    | some id =>
      have ha : (s.setTwist t w).arbor id = s.arbor id := rfl
      dsimp only
      unfold modCoil
      rw [ha]
      cases s.arbor id <;> rfl
  · rfl

/-- The LAY_WARN notices of a close (R57, R58, R75). -/
def steadyTold (i : Sta) (severe drifted : Bool) (s : State) : State :=
  let v := if severe then raise .layWarn (.station i) 0x300 s else s
  if drifted && !s.settings.disable.getLsbD 2 then raise .layWarn (.station i) 0x301 v else v

theorem steadyTold_frame (i : Sta) (severe drifted : Bool) (s : State) : NoticeFrame s (steadyTold i severe drifted s) := by
  unfold steadyTold
  extract_lets v
  have hv : NoticeFrame s v := by
    dsimp only [v]
    split
    · exact raise_frame ..
    · exact .refl s
  split
  · exact hv.trans (raise_frame ..)
  · exact hv

theorem steadyTold_setTwist (i : Sta) (severe drifted : Bool) (s : State) (t : Twi) (w : Twist) :
    steadyTold i severe drifted (s.setTwist t w) = (steadyTold i severe drifted s).setTwist t w := by
  unfold steadyTold
  dsimp only
  have hv : (if severe then raise .layWarn (.station i) 0x300 (s.setTwist t w) else s.setTwist t w) =
      (if severe then raise .layWarn (.station i) 0x300 s else s).setTwist t w := by
    split
    · exact raise_setTwist ..
    · rfl
  rw [hv, raise_setTwist]
  show (if drifted && !s.settings.disable.getLsbD 2 then _ else _) = _
  split <;> rfl

/-- The halts of a close, LAY_SEVERE before LAY_DRIFT (R59). -/
def layHalts (i : Sta) (haltSevere haltDrift : Bool) (s : State) : State :=
  let first := if haltSevere then raiseCause i .laySevere s else s
  if haltDrift then raiseCause i .layDrift first else first

/-- The drift count after a close (R58). -/
def driftKept (l : Lay) (f : Int) (tol : Nat) : Lay := { l with drift := if tol < f.natAbs then min 255 (l.drift + 1) else 0 }

/-- A close in STEADY up to its halts. -/
def steadyClosed (t : Twi) (e f : Int) (tol : Nat) (s : State) (w : Twist) : State :=
  steadyTold (twiSta t) (decide (2 * tol < e.natAbs)) (decide (tol < f.natAbs) && w.lay.drift == 2)
    ((s.setTwist t { w with lay := driftKept w.lay f tol }).setCoiler
      (layCoiled t f (decide (tol < f.natAbs) && w.lay.drift == 2) s))

theorem closeSteady_eq {t : Twi} {e f : Int} {tol : Nat} {s : State} {w : Twist} :
    closeSteady t e f tol (s.setTwist t w) =
      layHalts (twiSta t) (decide (2 * tol < e.natAbs) && s.settings.haltEnable.getLsbD 0)
        ((decide (tol < f.natAbs) && w.lay.drift == 2) && s.settings.haltEnable.getLsbD 1) (steadyClosed t e f tol s w) := by
  have hset : (steadyClosed t e f tol s w).settings = s.settings := (steadyTold_frame ..).settings
  unfold closeSteady
  extract_lets i severe beyond drift drifted s1 s2 s3 s4 hS hD s5
  have hdrifted : drifted = (decide (tol < f.natAbs) && w.lay.drift == 2) := by
    dsimp only [drifted, beyond]
    rw [State.setTwist_twist_self]
  have h2 : s2 = (s.setTwist t { w with lay := driftKept w.lay f tol }).setCoiler
      (layCoiled t f (decide (tol < f.natAbs) && w.lay.drift == 2) s) := by
    have hdrift : drift = (driftKept w.lay f tol).drift := by
      dsimp only [drift, beyond, driftKept]
      rw [State.setTwist_twist_self]
      simp only [decide_eq_true_eq]
    dsimp only [s2, s1]
    rw [hdrifted, modLay_setTwist, supplyLayStat_setTwist, hdrift]
    rfl
  have h4 : s4 = steadyClosed t e f tol s w := by
    have h3 : s3.settings = s2.settings := by
      dsimp only [s3]
      split
      · exact (raise_frame ..).settings
      · rfl
    unfold steadyClosed
    rw [← h2, ← hdrifted]
    unfold steadyTold
    dsimp only [s4]
    cases drifted with
    | false => rfl
    | true =>
      rw [if_pos rfl, warn_eq, h3, Bool.true_and]
      show (if s2.settings.disable.getLsbD 2 then s3 else _) = if (!s2.settings.disable.getLsbD 2) = true then _ else s3
      cases s2.settings.disable.getLsbD 2 <;> rfl
  unfold layHalts
  rw [← h4, ← hdrifted, ← hset, ← h4]
  rfl

theorem steadyClosed_station (t : Twi) (e f : Int) (tol : Nat) (s : State) (w : Twist) (i : Sta) :
    (steadyClosed t e f tol s w).station i = s.station i := (steadyTold_frame ..).station i

theorem steadyClosed_twist (t : Twi) (e f : Int) (tol : Nat) (s : State) (w : Twist) :
    (steadyClosed t e f tol s w).twist t = { w with lay := driftKept w.lay f tol } :=
  ((steadyTold_frame ..).twist t).trans (State.setTwist_twist_self ..)

theorem setTwist_coiled (s : State) (t : Twi) (w w' : Twist) (k : Coiler) :
    ((s.setTwist t w).setCoiler k).setTwist t w' = (s.setTwist t w').setCoiler k :=
  congrArg (·.setCoiler k) (setTwist_setTwist ..)

/-- A close that halts nothing: the window opens again. -/
theorem reopen_steadyClosed {t : Twi} {e f : Int} {tol : Nat} {s : State} {w : Twist}
    (h : (s.station (twiSta t)).state = .steady) :
    reopen t (steadyClosed t e f tol s w) =
      steadyTold (twiSta t) (decide (2 * tol < e.natAbs)) (decide (tol < f.natAbs) && w.lay.drift == 2)
        ((s.setTwist t { w with
            lay := { driftKept w.lay f tol with isOpen := true, p := 0, dl := 0, openMs := s.nowMs } }).setCoiler
          (layCoiled t f (decide (tol < f.natAbs) && w.lay.drift == 2) s)) := by
  have hnow : (steadyClosed t e f tol s w).nowMs = s.nowMs := congrArg (· / 1000) (steadyTold_frame ..).now
  rw [reopen_turning (.inr (by rw [steadyClosed_station, h])), steadyClosed_twist, hnow]
  unfold steadyClosed
  rw [← steadyTold_setTwist, setTwist_coiled]

/-! ## The halts (R59) -/

theorem layHalts_none (i : Sta) (s : State) : layHalts i false false s = s := rfl

/-- The two causes of a lay monitor. -/
theorem lay_admissible (t : Twi) : Cause.laySevere.admissible (kindOf (twiSta t)) = true ∧
    Cause.layDrift.admissible (kindOf (twiSta t)) = true ∧ twiSta t ≠ staK0 := by revert t; decide

/-- A cause raised on a twisting station in STEADY: the record, and what the run-down sets. -/
theorem raiseCause_steady {t : Twi} {c : Cause} {s : State} (ha : c.admissible (kindOf (twiSta t)) = true)
    (hn : s.has (twiSta t) c = false) (hs : (s.station (twiSta t)).state = .steady) :
    (raiseCause (twiSta t) c s).station (twiSta t) = { withCause c s (s.station (twiSta t)) with state := .runDown } ∧
      (raiseCause (twiSta t) c s).twist t =
        { s.twist t with
          lay := (s.twist t).lay.discard, stillMs := some s.nowMs, runUp := (s.twist t).runUp.stop s.nowMs
          runDown := .startAt s.nowMs s.settings.scale } := by
  rw [raiseCause_eq_raiseOne _ _ _ (lay_admissible t).2.2, raiseOne_station _ _ _ ha hn, raiseOne_twist ha hn (.inr hs), hs]
  have hgo : afterRaise (twiSta t) .steady = .runDown := by clear * -; revert t; decide
  rw [hgo]
  exact ⟨rfl, rfl⟩

/-- The halts of a close on a station in STEADY with no cause: it runs down. -/
theorem layHalts_steady {t : Twi} {s : State} {hS hD : Bool} (hs : (s.station (twiSta t)).state = .steady)
    (hc : (s.station (twiSta t)).causes = 0) (hany : hS = true ∨ hD = true) :
    (layHalts (twiSta t) hS hD s).station (twiSta t) =
        { s.station (twiSta t) with
          state := .runDown
          causes := (if hS then 1 else 0) ||| (if hD then 2 else 0)
          retryUntilMs := if hS then s.settings.retryWait.ms.map (s.nowMs + ·) else (s.station (twiSta t)).retryUntilMs } ∧
      (layHalts (twiSta t) hS hD s).twist t =
        { s.twist t with
          lay := (s.twist t).lay.discard, stillMs := some s.nowMs, runUp := (s.twist t).runUp.stop s.nowMs
          runDown := .startAt s.nowMs s.settings.scale } := by
  obtain ⟨hadm, hadm', hK⟩ := lay_admissible t
  have hno (c : Cause) : s.has (twiSta t) c = false := by unfold State.has hasCause; rw [hc]; cases c <;> rfl
  obtain ⟨hsta, htw⟩ := raiseCause_steady hadm (hno _) hs
  obtain ⟨hsta', htw'⟩ := raiseCause_steady hadm' (hno _) hs
  unfold withCause at hsta hsta'
  rw [hc] at hsta hsta'
  cases hS with
  | false =>
    have hD' : hD = true := hany.resolve_left (by decide)
    subst hD'
    exact ⟨hsta', htw'⟩
  | true =>
    cases hD with
    | false => exact ⟨hsta, htw⟩
    | true =>
      have hdrift : (raiseCause (twiSta t) .laySevere s).has (twiSta t) .layDrift = false := by
        unfold State.has
        rw [hsta]
        show hasCause (0 ||| BitVec.twoPow 12 Cause.laySevere.idx) .layDrift = false
        decide
      have hst : ((raiseCause (twiSta t) .laySevere s).station (twiSta t)).state = .runDown := by rw [hsta]
      show (raiseCause (twiSta t) .layDrift (raiseCause (twiSta t) .laySevere s)).station (twiSta t) = _ ∧
        (raiseCause (twiSta t) .layDrift (raiseCause (twiSta t) .laySevere s)).twist t = _
      rw [raiseCause_eq_raiseOne _ .layDrift _ hK, raiseOne_runDown hadm' hdrift hst, (raise_frame ..).station,
        State.setStation_station_self, (raise_frame ..).twist]
      refine ⟨?_, htw⟩
      unfold withCause
      rw [hsta]
      rfl

theorem layHalts_move (i : Sta) (hS hD : Bool) (s : State) : MoveFrame s (layHalts i hS hD s) := by
  cases hS <;> cases hD
  · exact .refl s
  · exact raiseCause_move ..
  · exact raiseCause_move ..
  · exact (raiseCause_move ..).trans (raiseCause_move ..)

theorem layHalts_station_ne {t : Twi} {j : Sta} (hS hD : Bool) (s : State) (h : j ≠ twiSta t) :
    (layHalts (twiSta t) hS hD s).station j = s.station j := by
  have one (c : Cause) (u : State) : (raiseCause (twiSta t) c u).station j = u.station j :=
    raiseCause_station_ne _ _ _ _ h (.inr (lay_admissible t).2.2)
  cases hS <;> cases hD
  · rfl
  · exact one ..
  · exact one ..
  · exact (one ..).trans (one ..)

theorem writeStation_setTwist (i : Sta) (r : Station) (s : State) (t : Twi) (w : Twist) :
    writeStation i r (s.setTwist t w) = (writeStation i r s).setTwist t w := by
  have h : (s.setTwist t w).setStation i r = (s.setStation i r).setTwist t w := rfl
  have hs : (s.setTwist t w).station i = s.station i := rfl
  unfold writeStation
  rw [h, hs, raise_setTwist]
  split <;> rfl

/-- A station that goes from RUN_UP to STEADY, its window opened again. -/
theorem enters_steady {t : Twi} {s : State} {w : Twist} (hr : (s.station (twiSta t)).state = .runUp) :
    let u := reopen t (moveTo (twiSta t) .steady (s.setTwist t w))
    let r := { s.station (twiSta t) with state := .steady }
    u = { s with twists := u.twists, stations := u.stations, ports := u.ports, queues := u.queues } ∧
      u.twist t = { w with lay := { w.lay with isOpen := true, p := 0, dl := 0, openMs := s.nowMs } } ∧
      (∀ k, k ≠ t → u.twist k = s.twist k) ∧ u.station (twiSta t) = r ∧
      (∀ j, j ≠ twiSta t → u.station j = s.station j) ∧
      u.queues = (raise .state (.station (twiSta t)) 0x103 (s.setStation (twiSta t) r)).queues := by
  intro u r
  have htold : writeStation (twiSta t) r s = raise .state (.station (twiSta t)) 0x103 (s.setStation (twiSta t) r) :=
    if_neg fun h => (show RunState.steady ≠ .runUp by decide) (h.trans hr)
  have hframe := raise_frame .state (.station (twiSta t)) 0x103 (s.setStation (twiSta t) r)
  have hu : u = reopen t ((raise .state (.station (twiSta t)) 0x103 (s.setStation (twiSta t) r)).setTwist t w) := by
    rw [← htold, ← writeStation_setTwist, show r = { (s.setTwist t w).station (twiSta t) with state := .steady } from rfl,
      ← moveTo_eq_writeStation]
  generalize raise .state (.station (twiSta t)) 0x103 (s.setStation (twiSta t) r) = v at *
  have hsta : v.station (twiSta t) = r := (hframe.station _).trans (State.setStation_station_self ..)
  have hnow : v.nowMs = s.nowMs := congrArg (· / 1000) hframe.now
  rw [reopen_setTwist (.inr (by rw [hsta])), hnow] at hu
  clear_value u
  subst hu
  refine ⟨?_, State.setTwist_twist_self .., fun k hk => ?_, hsta, fun j hj => ?_, rfl⟩
  · rw [hframe.1]
    rfl
  · rw [State.setTwist_twist_ne _ _ _ _ hk]
    exact hframe.twist k
  · exact (hframe.station j).trans (State.setStation_station_ne _ _ _ _ hj)

/-! ## The coil of a close (R60) -/

theorem layCoiled_strander {t : Twi} (ht : t ≠ 4) (f : Int) (drifted : Bool) (s : State) :
    layCoiled t f drifted s = s.coiler := by
  have h : twiSta t ≠ staC0 := by revert t; decide
  unfold layCoiled supplyLayStat
  rw [if_neg h]

theorem layCoiled_closer {t : Twi} {f : Int} {drifted : Bool} {s : State} {id : ArborId} {ph : ArborPhase} {c : Coil}
    (ht : t = 4) (hid : s.windingArbor = some id) (hc : s.arbor id = .busy ph c) :
    layCoiled t f drifted s = s.coiler.setArbor id (.busy ph (c.layStat f drifted)) := by
  subst ht
  unfold layCoiled supplyLayStat modCoil
  rw [hid, if_pos (by decide)]
  dsimp only
  rw [hc]
  rfl

theorem layCoiled_none {t : Twi} {f : Int} {drifted : Bool} {s : State} (hid : s.windingArbor = none) :
    layCoiled t f drifted s = s.coiler := by
  unfold layCoiled supplyLayStat
  rw [hid]
  split <;> rfl

/-- The arbor that winds holds a coil. -/
theorem windingArbor_busy {s : State} {id : ArborId} (h : s.windingArbor = some id) : ∃ ph c, s.arbor id = .busy ph c := by
  have winds {x : Arbor} (hx : x.winds = true) : ∃ ph c, x = .busy ph c := by
    cases x with
    | free => cases hx
    | busy ph c => exact ⟨ph, c, rfl⟩
  unfold State.windingArbor at h
  split at h
  · next ha => cases h; exact winds ha
  · split at h
    · next hb => cases h; exact winds hb
    · cases h

/-! ## A close in RUN_UP (R56) -/

/-- The measuring context of a window that has closed and opened again (R50). -/
def again (l : Lay) (target n nowMs : Nat) : Lay :=
  { shut l target n with isOpen := true, p := 0, dl := 0, openMs := nowMs }

theorem again_eq {l : Lay} (h : l.isOpen = true) (target n nowMs : Nat) :
    again l target n nowMs =
      { l with
        p := 0, dl := 0, openMs := nowMs, lastLay := some (layOf l.dl n), lastE := some (windowError l target n)
        f := some (windowFiltered l target n), seedPending := false } := by
  unfold again shut Lay.discard
  rw [← h]
  rfl

theorem closeRunUp_further {t : Twi} {e : Int} {tol good : Nat} {s : State} {w : Twist}
    (h : (if e.natAbs ≤ tol then w.lay.good + 1 else 0) = good) (hg : good < 2) :
    closeRunUp t e tol (s.setTwist t w) = s.setTwist t { w with lay := { w.lay with good := good } } := by
  unfold closeRunUp
  rw [State.setTwist_twist_self]
  dsimp only
  rw [h, if_neg (by omega), modLay_setTwist]

theorem closeRunUp_steady {t : Twi} {e : Int} {tol : Nat} {s : State} {w : Twist} (he : e.natAbs ≤ tol)
    (hg : 1 ≤ w.lay.good) :
    closeRunUp t e tol (s.setTwist t w) =
      moveTo (twiSta t) .steady (s.setTwist t { w with lay := { w.lay with good := 0 }, runUp := w.runUp.stop s.nowMs }) := by
  unfold closeRunUp
  rw [State.setTwist_twist_self]
  dsimp only
  rw [if_pos he, if_pos (by omega), setTwist_setTwist]
  rfl

/-! ## A close that halts (R57 to R59) -/

/-- A severe close on a station in STEADY that has not LAY_SEVERE yet. -/
theorem severe_halts {t : Twi} {e f : Int} {tol : Nat} {s : State} {w : Twist} (hr : (s.station (twiSta t)).state = .steady)
    (hno : hasCause (s.station (twiSta t)).causes .laySevere = false) :
    let u := reopen t (layHalts (twiSta t) true false (steadyClosed t e f tol s w))
    u = { s with
      coiler := layCoiled t f (decide (tol < f.natAbs) && w.lay.drift == 2) s
      twists := u.twists, stations := u.stations, ports := u.ports, queues := u.queues } ∧
      u.station (twiSta t) = { withCause .laySevere s (s.station (twiSta t)) with state := .runDown } ∧
      (∀ j, j ≠ twiSta t → u.station j = s.station j) ∧
      u.twist t =
        { w with
          lay := (driftKept w.lay f tol).discard, stillMs := some s.nowMs, runUp := w.runUp.stop s.nowMs
          runDown := .startAt s.nowMs s.settings.scale } := by
  intro u
  have hZ : NoticeFrame ((s.setTwist t { w with lay := driftKept w.lay f tol }).setCoiler
    (layCoiled t f (decide (tol < f.natAbs) && w.lay.drift == 2) s)) (steadyClosed t e f tol s w) := steadyTold_frame ..
  have htw := steadyClosed_twist t e f tol s w
  have hu : u = reopen t (raiseCause (twiSta t) .laySevere (steadyClosed t e f tol s w)) := rfl
  clear_value u
  generalize steadyClosed t e f tol s w = z at *
  have hsta (j : Sta) : z.station j = s.station j := hZ.station j
  have hset : z.settings = s.settings := hZ.settings
  have hnow : z.nowMs = s.nowMs := congrArg (· / 1000) hZ.now
  obtain ⟨hus, hut⟩ := raiseCause_steady (t := t) (c := .laySevere) (s := z) (lay_admissible t).1
    (by unfold State.has; rw [hsta]; exact hno) (by rw [hsta, hr])
  have hmove := (raiseCause_move (twiSta t) .laySevere z).1
  have hne (j : Sta) (hj : j ≠ twiSta t) : (raiseCause (twiSta t) .laySevere z).station j = s.station j :=
    (layHalts_station_ne true false z hj).trans (hsta j)
  rw [reopen_still (by rw [hus])] at hu
  generalize raiseCause (twiSta t) .laySevere z = v at *
  subst hu
  refine ⟨?_, ?_, hne, ?_⟩
  · rw [hZ.1] at hmove
    exact hmove
  · rw [hus, hsta]
    unfold withCause
    rw [hset, hnow]
  · rw [hut, htw, hset, hnow]

/-- A close that halts a station in STEADY with no cause. -/
theorem halts_clean {t : Twi} {e f : Int} {tol : Nat} {s : State} {w : Twist} {hS hD : Bool}
    (hr : (s.station (twiSta t)).state = .steady) (hc : (s.station (twiSta t)).causes = 0) (hany : hS = true ∨ hD = true) :
    let u := layHalts (twiSta t) hS hD (steadyClosed t e f tol s w)
    reopen t u = u ∧
      u.station (twiSta t) =
        { s.station (twiSta t) with
          state := .runDown
          causes := (if hS then 1 else 0) ||| (if hD then 2 else 0)
          retryUntilMs := if hS then s.settings.retryWait.ms.map (s.nowMs + ·) else (s.station (twiSta t)).retryUntilMs } ∧
      (∀ j, j ≠ twiSta t → u.station j = s.station j) ∧
      u.coiler = layCoiled t f (decide (tol < f.natAbs) && w.lay.drift == 2) s ∧
      (u.twist t).lay = (driftKept w.lay f tol).discard := by
  intro u
  have hZ : NoticeFrame ((s.setTwist t { w with lay := driftKept w.lay f tol }).setCoiler
    (layCoiled t f (decide (tol < f.natAbs) && w.lay.drift == 2) s)) (steadyClosed t e f tol s w) := steadyTold_frame ..
  have htw := steadyClosed_twist t e f tol s w
  dsimp only [u]
  generalize steadyClosed t e f tol s w = z at *
  have hsta (j : Sta) : z.station j = s.station j := hZ.station j
  have hset : z.settings = s.settings := hZ.settings
  have hnow : z.nowMs = s.nowMs := congrArg (· / 1000) hZ.now
  obtain ⟨hus, hut⟩ := layHalts_steady (t := t) (s := z) (by rw [hsta, hr]) (by rw [hsta, hc]) hany
  refine ⟨reopen_still (by rw [hus]), ?_, fun j hj => (layHalts_station_ne _ _ _ hj).trans (hsta j), ?_, ?_⟩
  · rw [hus, hsta, hset, hnow]
  · rw [(layHalts_move (twiSta t) hS hD z).1]
    exact hZ.coiler
  · rw [hut, htw]

end Sys2Proof.Laws

namespace Sys2Proof.Proofs

open Sys2Proof.Machine Sys2Proof.Safety Sys2Proof.Laws

/-- Settles O19: a close is `flyEdge_closes`; in RUN_UP `closeRunUp` and in STEADY `closeSteady_eq` say what follows. -/
theorem flyEdgesMeasureTheLay : Obligations.FlyEdgesMeasureTheLay := by
  intro t s i r w
  refine ⟨fun h => ?_, fun h hp => ?_, fun target tol n h hp hterms => ?_⟩
  · exact (flyEdge_eq t s).trans (if_neg (by rw [show (s.twist t).lay.isOpen = false from h]; decide))
  · exact (flyEdge_eq t s).trans ((if_pos h).trans (if_neg (Nat.not_le.mpr hp)))
  · intro lay e f measured
    have hm : measured = again w.lay target n s.nowMs := (again_eq h target n s.nowMs).symm
    have hclose : flyEdge t s =
        reopen t (classified t e f tol r.state (s.setTwist t { w with lay := shut w.lay target n })) :=
      flyEdge_closes h hp hterms
    have hrun (hr : r.state = .runUp) : flyEdge t s =
        reopen t (closeRunUp t e tol (s.setTwist t { w with lay := shut w.lay target n })) :=
      hclose.trans (congrArg _ (if_pos hr))
    have hfurther (hr : r.state = .runUp) {good : Nat} (hg : (if e.natAbs ≤ tol then w.lay.good + 1 else 0) = good)
        (h2 : good < 2) : flyEdge t s = s.setTwist t { w with lay := { measured with good := good } } := by
      rw [hrun hr, closeRunUp_further (w := { w with lay := shut w.lay target n }) hg h2, reopen_setTwist (.inl hr), hm]
      rfl
    have hsteady (hr : r.state = .steady) : flyEdge t s =
        reopen t (closeSteady t e f tol (s.setTwist t { w with lay := shut w.lay target n })) :=
      hclose.trans (congrArg _ ((if_neg (by rw [hr]; decide)).trans (if_pos hr)))
    refine ⟨fun hr he => hfurther hr (if_neg (by omega)) (by decide), fun hr he hg => hfurther hr ?_ (by decide),
      fun hr he hg => ⟨_, rfl, ?_⟩, ?_⟩
    · rw [if_pos he, hg]
    · rw [hrun hr, closeRunUp_steady (w := { w with lay := shut w.lay target n }) he (by rw [show (shut w.lay target n).good = 1 from hg])]
      obtain ⟨hframe, htw, hne, hsta, hsta_ne, hq⟩ := enters_steady (t := t) (s := s)
        (w := { w with lay := { shut w.lay target n with good := 0 }, runUp := w.runUp.stop s.nowMs }) hr
      refine ⟨hframe, htw.trans ?_, hne, hsta, hsta_ne, hq⟩
      rw [hm]
      rfl
    · have hsd (hr : r.state = .steady) : flyEdge t s = reopen t (layHalts i
          (decide (2 * tol < e.natAbs) && s.settings.haltEnable.getLsbD 0)
          ((decide (tol < f.natAbs) && w.lay.drift == 2) && s.settings.haltEnable.getLsbD 1)
          (steadyClosed t e f tol s { w with lay := shut w.lay target n })) := by
        rw [hsteady hr, closeSteady_eq]
        rfl
      have hcalm (hr : r.state = .steady)
          (hS : (decide (2 * tol < e.natAbs) && s.settings.haltEnable.getLsbD 0) = false)
          (hD : ((decide (tol < f.natAbs) && w.lay.drift == 2) && s.settings.haltEnable.getLsbD 1) = false) :
          flyEdge t s = steadyTold i (decide (2 * tol < e.natAbs)) (decide (tol < f.natAbs) && w.lay.drift == 2)
            ((s.setTwist t { w with lay := driftKept measured f tol }).setCoiler
              (layCoiled t f (decide (tol < f.natAbs) && w.lay.drift == 2) s)) := by
        rw [hsd hr, hS, hD, layHalts_none, reopen_steadyClosed hr, hm]
        rfl
      have hmild (hr : r.state = .steady) (he : e.natAbs ≤ 2 * tol) (hf : f.natAbs ≤ tol) :
          flyEdge t s = (s.setTwist t { w with lay := { measured with drift := 0 } }).setCoiler (layCoiled t f false s) := by
        have hE : decide (2 * tol < e.natAbs) = false := decide_eq_false (by omega)
        have hF : decide (tol < f.natAbs) = false := decide_eq_false (by omega)
        have hk : driftKept measured f tol = { measured with drift := 0 } := by
          unfold driftKept
          rw [if_neg (by omega)]
        rw [hcalm hr (by rw [hE]; rfl) (by rw [hF]; rfl), hE, hF, hk]
        rfl
      refine ⟨fun hr he hf ht => ?_, fun hr he hf ht c hc => ?_, fun hr he hf ht hen hno => ?_, fun hr => ?_⟩
      · rw [hmild hr he hf, layCoiled_strander ht]
        rfl
      · rw [hmild hr he hf, layCoiled_closer ht (id := .a) (ph := .winding) (c := c) (by unfold State.windingArbor; rw [hc]; rfl) hc]
        rfl
      · obtain ⟨hframe, hsta, hne, htw⟩ := severe_halts (e := e) (f := f) (tol := tol)
          (w := { w with lay := shut w.lay target n }) hr hno
        have hF : decide (tol < f.natAbs) = false := decide_eq_false (by omega)
        have hu : flyEdge t s = reopen t (layHalts i true false (steadyClosed t e f tol s { w with lay := shut w.lay target n })) := by
          rw [hsd hr, decide_eq_true he, hF, hen]
          rfl
        rw [layCoiled_strander ht] at hframe
        refine ⟨_, hu, hframe, hsta, hne, ?_, ?_, ?_⟩
        · rw [htw]
          unfold driftKept
          rw [if_neg (by omega)]
          rfl
        · rw [htw]; rfl
        · rw [htw]
      · intro severe beyond drifted kept coiled warned haltSevere haltDrift
        have hk : driftKept measured f tol = kept := by
          dsimp only [kept, beyond]
          simp only [decide_eq_true_eq]
          rfl
        have hcoiled : coiled = layCoiled t f drifted s := by
          dsimp only [coiled]
          cases hid : s.windingArbor with
          | none => exact (layCoiled_none hid).symm
          | some id =>
            obtain ⟨ph, c, hc⟩ := windingArbor_busy hid
            rw [Option.map_some, hc]
            dsimp only
            split
            · next ht => exact (layCoiled_closer ht hid hc).symm
            · next ht => exact (layCoiled_strander ht f drifted s).symm
        refine ⟨fun hS hD => ?_, fun hany hc => ?_⟩
        · rw [hcalm hr hS hD, hk, hcoiled]
          rfl
        · intro closed first u
          obtain ⟨hre, hsta, hne, hco, htw⟩ := halts_clean (e := e) (f := f) (tol := tol)
            (w := { w with lay := shut w.lay target n }) hr hc hany
          have hclosed : steadyClosed t e f tol s { w with lay := shut w.lay target n } = closed := by
            have hclosed : driftKept (shut w.lay target n) f tol = { kept with isOpen := false, openMs := w.lay.openMs } := by
              rw [← hk]
              rfl
            unfold steadyClosed
            dsimp only [closed]
            rw [hclosed, hcoiled]
            rfl
          have hu : layHalts i haltSevere haltDrift
              (steadyClosed t e f tol s { w with lay := shut w.lay target n }) = u := by
            rw [hclosed]
            rfl
          rw [hu] at hre hsta hne hco htw
          refine ⟨?_, hsta, hne, hco.trans hcoiled.symm, ?_⟩
          · rw [hsd hr]
            exact (congrArg _ hu).trans hre
          · rw [htw, ← hk]
            rfl

end Sys2Proof.Proofs
end

section
/-! The stop of every station (R8, R9): what it makes of each station, before the ends of fill. -/

namespace Sys2Proof.Laws

open Sys2Proof.Machine Sys2Proof.Safety

/-! ## What a stop leaves of the stations -/

/-- `t`'s stations have the causes of `s` and maybe more, BOBBIN_FULL on the same stranders, and those in HALTED and ROW_HOLD
stayed there. -/
structure Pressed (s t : State) : Prop where
  causes : ∀ i c, hasCause (s.station i).causes c = true → hasCause (t.station i).causes c = true
  halted : ∀ i, (s.station i).state = .halted → (t.station i).state = .halted
  rowHold : ∀ i, (s.station i).state = .rowHold → (t.station i).state = .rowHold
  full : ∀ i, hasCause (t.station i).causes .bobbinFull = hasCause (s.station i).causes .bobbinFull

theorem Pressed.of_stations {s t : State} (h : ∀ i, t.station i = s.station i) : Pressed s t :=
  ⟨fun i _ => by rw [h i]; exact id, fun i => by rw [h i]; exact id, fun i => by rw [h i]; exact id, fun i => by rw [h i]⟩

theorem Pressed.refl (s : State) : Pressed s s := .of_stations fun _ => rfl

theorem Pressed.trans {s t u : State} (h : Pressed s t) (k : Pressed t u) : Pressed s u :=
  ⟨fun i c => k.causes i c ∘ h.causes i c, fun i => k.halted i ∘ h.halted i, fun i => k.rowHold i ∘ h.rowHold i,
    fun i => (k.full i).trans (h.full i)⟩

/-- One station's record changed. -/
theorem Pressed.of_one {s t : State} {i : Sta} (hne : ∀ j, j ≠ i → t.station j = s.station j)
    (hc : ∀ c, hasCause (s.station i).causes c = true → hasCause (t.station i).causes c = true)
    (hh : (s.station i).state = .halted → (t.station i).state = .halted)
    (hr : (s.station i).state = .rowHold → (t.station i).state = .rowHold)
    (hf : hasCause (t.station i).causes .bobbinFull = hasCause (s.station i).causes .bobbinFull) : Pressed s t := by
  have cases_on {P : Sta → Prop} (hi : P i) (hj : ∀ j, t.station j = s.station j → P j) (j : Sta) : P j := by
    by_cases h : j = i
    · exact h ▸ hi
    · exact hj j (hne j h)
  exact ⟨cases_on hc fun j e c => by rw [e]; exact id, cases_on hh fun j e => by rw [e]; exact id,
    cases_on hr fun j e => by rw [e]; exact id, cases_on hf fun j e => by rw [e]⟩

theorem raiseOne_pressed (i : Sta) {c : Cause} (s : State) (hc : c ≠ .bobbinFull) : Pressed s (raiseOne i c s) := by
  by_cases h : c.admissible (kindOf i) = false ∨ s.has i c = true
  · rw [show raiseOne i c s = s from if_pos h]
    exact .refl s
  · rw [not_or, Bool.not_eq_false, Bool.not_eq_true] at h
    have hsta := raiseOne_station i c s h.1 h.2
    refine .of_one (i := i) (fun j hj => raiseOne_station_ne _ _ _ _ hj) ?_ ?_ ?_ ?_ <;> rw [hsta]
    · intro d hd
      rw [hasCause_add, hd, Bool.true_or]
    · exact fun e => by rw [e]; rfl
    · exact fun e => by rw [e]; rfl
    · rw [hasCause_add]
      simp [hc]

theorem raiseCause_pressed (i : Sta) {c : Cause} (s : State) (hc : c ≠ .bobbinFull) : Pressed s (raiseCause i c s) := by
  refine (raiseOne_pressed i s hc).trans ?_
  unfold raiseCause coilerHalted
  split
  · exact raiseOne_pressed _ _ (by decide)
  · exact .refl _

theorem raiseOnAll_pressed (set : BitSet 8) {c : Cause} (s : State) (hc : c ≠ .bobbinFull) : Pressed s (raiseOnAll set c s) :=
  foldl_frame (F := Pressed) .refl .trans _ (fun s i => by
    split
    · exact raiseCause_pressed _ _ hc
    · exact .refl s) _ s

/-! ## One station stopped -/

theorem stopStation_pressed {c : Cause} (s : State) (i : Sta) (hc : c ≠ .bobbinFull) : Pressed s (stopStation c s i) := by
  unfold stopStation
  split
  · split
    · next t ht =>
      have ht := twiSta_of_twistOf ht
      subst ht
      split
      · next hr =>
        obtain ⟨hst, hhas, hsame, hne⟩ := haltUnder_station t c s hr
        refine .of_one hne (fun d hd => ?_) (fun _ => hst) (fun h => ?_) (hsame _ hc.symm)
        · by_cases h : d = c
          · rw [h]; exact hhas
          · exact (hsame d h).trans hd
        · rw [h] at hr; cases hr
      · exact raiseCause_pressed _ _ hc
    · exact raiseCause_pressed _ _ hc
  · exact .refl s

theorem stopStation_move (c : Cause) (s : State) (i : Sta) : MoveFrame s (stopStation c s i) := by
  unfold stopStation
  split
  · split
    · split
      · exact haltUnder_move ..
      · exact raiseCause_move ..
    · exact raiseCause_move ..
  · exact .refl s

/-- The stop of one station touches no other, but K0's may touch C0. -/
theorem stopStation_station_ne {c : Cause} {s : State} {i j : Sta} (h : j ≠ i) (h' : j ≠ staC0 ∨ i ≠ staK0) :
    (stopStation c s i).station j = s.station j := by
  unfold stopStation
  split
  · split
    · next t ht =>
      have ht := twiSta_of_twistOf ht
      subst ht
      split
      · next hr =>
        obtain ⟨-, -, -, hne⟩ := haltUnder_station t c s hr
        exact hne j h
      · exact raiseCause_station_ne _ _ _ _ h h'
    · exact raiseCause_station_ne _ _ _ _ h h'
  · rfl

/-- A record `r` stopped: it has the cause, and is HALTED, or in ROW_HOLD as it was. -/
def Stopped (c : Cause) (r r' : Station) : Prop :=
  hasCause r'.causes c = true ∧ (r'.state = .halted ∨ r.state = .rowHold ∧ r'.state = .rowHold)

theorem Stopped.press {c : Cause} {r : Station} {s t : State} {i : Sta} (h : Stopped c r (s.station i)) (k : Pressed s t) :
    Stopped c r (t.station i) :=
  ⟨k.causes _ _ h.1, h.2.imp (k.halted i) (And.imp_right (k.rowHold i))⟩

theorem twistRuns_of_kind {i : Sta} {st : RunState} (h : stateOfKind (kindOf i) st = true) (hi : twistOf i = none) :
    st.twistRuns = false := by
  revert h hi
  cases st <;> revert i <;> decide

/-- A station that holds a lot and does not run as a twisting station is stopped by the raise of the cause. -/
theorem raiseCause_stops {c : Cause} {s : State} {i : Sta} (ha : c.admissible (kindOf i) = true)
    (hok : StationOk i (s.station i)) (hl : (s.station i).lot ≠ none) (hr : (s.station i).state.twistRuns = false) :
    Stopped c (s.station i) ((raiseCause i c s).station i) := by
  refine ⟨raiseCause_has_self ha, ?_⟩
  obtain ⟨-, -, hlot⟩ := hok
  obtain ⟨hidle, -, hclean⟩ := hlot hl
  rw [raiseCause_state]
  split
  · next h =>
    have hhas : s.has i c = true := h.resolve_left (by rw [ha]; decide)
    have hdirty : (s.station i).causes ≠ 0 := ne_zero_of_hasCause hhas
    cases hst : (s.station i).state
    case halted => exact .inl rfl
    case rowHold => exact .inr ⟨rfl, rfl⟩
    case idle => exact absurd hst hidle
    case standby | knotting | active => exact absurd (hclean (by simp [hst])) hdirty
    case runUp | steady | runDown => rw [hst] at hr; cases hr
  · cases hst : (s.station i).state
    case halted | idle | standby | knotting | active => exact .inl rfl
    case rowHold => exact .inr ⟨rfl, rfl⟩
    case runUp | steady | runDown => rw [hst] at hr; cases hr

/-- A station in order that holds a lot is stopped: it has the cause, and is HALTED or still in ROW_HOLD. -/
theorem stopStation_stops {c : Cause} {s : State} {i : Sta} (ha : c.admissible (kindOf i) = true)
    (hok : StationOk i (s.station i)) (hl : (s.station i).lot ≠ none) :
    Stopped c (s.station i) ((stopStation c s i).station i) := by
  unfold stopStation
  rw [if_pos (Option.isSome_iff_ne_none.mpr hl)]
  split
  · next t ht =>
    have ht := twiSta_of_twistOf ht
    subst ht
    split
    · next hr =>
      obtain ⟨hst, hhas, -, -⟩ := haltUnder_station t c s hr
      exact ⟨hhas, .inl hst⟩
    · next hr => exact raiseCause_stops ha hok hl (Bool.not_eq_true _ ▸ hr)
  · next hi => exact raiseCause_stops ha hok hl (twistRuns_of_kind hok.1 hi)

theorem stopStation_idle {c : Cause} {s : State} {i : Sta} (hl : (s.station i).lot = none) : stopStation c s i = s := by
  unfold stopStation
  rw [hl]
  rfl

/-! ## Every station stopped -/

/-- Every station under a cause, before the ends of fill. -/
def allStopped (c : Cause) (s : State) : State := allStations.foldl (stopStation c) s

theorem allStopped_pressed {c : Cause} (s : State) (hc : c ≠ .bobbinFull) : Pressed s (allStopped c s) :=
  foldl_frame (F := Pressed) .refl .trans _ (fun s i => stopStation_pressed s i hc) _ s

theorem allStopped_move (c : Cause) (s : State) : MoveFrame s (allStopped c s) :=
  foldl_frame (F := MoveFrame) .refl .trans _ (stopStation_move c) _ s

/-- Stations other than K0, stopped one by one: each is stopped as it stood. -/
theorem foldl_stopStation_station {c : Cause} (is : List Sta) (hK : staK0 ∉ is) (hnd : is.Nodup) : ∀ (s : State) (j : Sta),
    (j ∉ is → (is.foldl (stopStation c) s).station j = s.station j) ∧
      (j ∈ is → ∃ u, u.station j = s.station j ∧ (is.foldl (stopStation c) s).station j = (stopStation c u j).station j) := by
  induction is with
  | nil => exact fun s j => ⟨fun _ => rfl, fun h => by cases h⟩
  | cons i is ih =>
    intro s j
    rw [List.mem_cons, not_or] at hK
    obtain ⟨hi, hnd⟩ := List.nodup_cons.mp hnd
    obtain ⟨hout, hin⟩ := ih hK.2 hnd (stopStation c s i) j
    rw [List.foldl_cons]
    by_cases hj : j = i
    · subst hj
      exact ⟨fun h => absurd List.mem_cons_self h, fun _ => ⟨s, rfl, hout hi⟩⟩
    · have hne : (stopStation c s i).station j = s.station j := stopStation_station_ne hj (.inr (Ne.symm hK.1))
      refine ⟨fun h => (hout fun h' => h (List.mem_cons_of_mem i h')).trans hne, fun h => ?_⟩
      obtain ⟨u, hu, e⟩ := hin ((List.mem_cons.mp h).resolve_left hj)
      exact ⟨u, hu.trans hne, e⟩

theorem allStopped_eq (c : Cause) (s : State) :
    allStopped c s = stopStation c (([0, 1, 2, 3, 4, 5, 6] : List Sta).foldl (stopStation c) s) staK0 := by
  unfold allStopped
  rw [show allStations = [0, 1, 2, 3, 4, 5, 6] ++ [staK0] from rfl, List.foldl_append, List.foldl_cons, List.foldl_nil]

theorem not_staK0_of_mem : staK0 ∉ ([0, 1, 2, 3, 4, 5, 6] : List Sta) ∧ ([0, 1, 2, 3, 4, 5, 6] : List Sta).Nodup ∧
    ∀ i, i ≠ staK0 → i ∈ ([0, 1, 2, 3, 4, 5, 6] : List Sta) := by decide

/-- Every station that holds a lot is stopped. -/
theorem allStopped_stops {c : Cause} {s : State} {i : Sta} (hc : c ≠ .bobbinFull) (ha : c.admissible (kindOf i) = true)
    (hok : StationOk i (s.station i)) (hl : (s.station i).lot ≠ none) :
    Stopped c (s.station i) ((allStopped c s).station i) := by
  obtain ⟨hK, hnd, hmem⟩ := not_staK0_of_mem
  obtain ⟨hout, hin⟩ := foldl_stopStation_station (c := c) _ hK hnd s i
  rw [allStopped_eq]
  by_cases hi : i = staK0
  · subst hi
    have e := hout hK
    rw [← e] at hok hl ⊢
    exact stopStation_stops ha hok hl
  · obtain ⟨u, hu, e⟩ := hin (hmem i hi)
    rw [← hu] at hok hl ⊢
    have hstop : Stopped c (u.station i) ((([0, 1, 2, 3, 4, 5, 6] : List Sta).foldl (stopStation c) s).station i) := by
      rw [e]
      exact stopStation_stops ha hok hl
    exact hstop.press (stopStation_pressed _ _ hc)

/-- K0's stop leaves C0 as it is while C0 holds no lot (R4). -/
theorem stopStation_coiler_idle {c : Cause} {s : State} (hl : (s.station staC0).lot = none) :
    (stopStation c s staK0).station staC0 = s.station staC0 := by
  have hraise : (raiseCause staK0 c s).station staC0 = s.station staC0 := by
    have hone : (raiseOne staK0 c s).station staC0 = s.station staC0 := raiseOne_station_ne _ _ _ _ (by decide)
    unfold raiseCause coilerHalted
    rw [hone, hl, if_neg (by simp), hone]
  unfold stopStation
  rw [show twistOf staK0 = none from rfl]
  split
  · exact hraise
  · rfl

/-- A station without a lot is left as it stands. -/
theorem allStopped_idle {c : Cause} {s : State} {i : Sta} (hl : (s.station i).lot = none) :
    (allStopped c s).station i = s.station i := by
  obtain ⟨hK, hnd, hmem⟩ := not_staK0_of_mem
  obtain ⟨hout, hin⟩ := foldl_stopStation_station (c := c) _ hK hnd s i
  rw [allStopped_eq]
  by_cases hi : i = staK0
  · subst hi
    have e := hout hK
    rw [stopStation_idle (by rw [e, hl]), e]
  · obtain ⟨u, hu, e⟩ := hin (hmem i hi)
    rw [stopStation_idle (by rw [hu, hl]), hu] at e
    by_cases hC : i = staC0
    · subst hC
      rw [stopStation_coiler_idle (by rw [e, hl]), e]
    · rw [stopStation_station_ne hi (.inl hC), e]

end Sys2Proof.Laws
end

section
/-! The ends of fill at a stop (R78, R44). -/

namespace Sys2Proof.Laws

open Sys2Proof.Machine Sys2Proof.Safety

/-! ## The lots that count ended fills -/

/-- A lot's record after the ends of fill of its own among `bs`, in order. -/
def filledBy (bs : List Bobbin) (l : Lot) : Lot := (bs.filter fun b => b.lot = some l.number).foldl filled l

theorem foldl_filled_kept (bs : List Bobbin) : ∀ l : Lot, (bs.foldl filled l).number = l.number ∧
    (bs.foldl filled l).stations = l.stations := by
  induction bs with
  | nil => exact fun l => ⟨rfl, rfl⟩
  | cons b bs ih => exact fun l => ih (filled l b)

theorem filledBy_number (bs : List Bobbin) (l : Lot) : (filledBy bs l).number = l.number := (foldl_filled_kept _ l).1
theorem filledBy_stations (bs : List Bobbin) (l : Lot) : (filledBy bs l).stations = l.stations := (foldl_filled_kept _ l).2

theorem filledBy_append (bs bs' : List Bobbin) (l : Lot) : filledBy (bs ++ bs') l = filledBy bs' (filledBy bs l) := by
  unfold filledBy
  rw [List.filter_append, List.foldl_append, (foldl_filled_kept _ l).1]

/-- A completed lot has LOT_END on every station of its set but K0 (R44). -/
theorem raiseOnAll_has {set : BitSet 8} {i : Sta} (hset : set.getLsbD i.val = true) (hi : i ≠ staK0) (s : State) :
    hasCause ((raiseOnAll set .lotEnd s).station i).causes .lotEnd = true := by
  have ha : Cause.lotEnd.admissible (kindOf i) = true := by clear hset; revert i; decide
  have reach (xs : List Sta) (hx : i ∈ xs) : ∀ s : State, hasCause
      ((xs.foldl (fun s i => if set.has i.val then raiseCause i .lotEnd s else s) s).station i).causes .lotEnd = true := by
    have keep (xs : List Sta) (s : State) :
        Pressed s (xs.foldl (fun s i => if set.has i.val then raiseCause i .lotEnd s else s) s) :=
      foldl_frame (F := Pressed) .refl .trans _ (fun s i => by
        split
        · exact raiseCause_pressed _ _ (by decide)
        · exact .refl s) xs s
    induction xs with
    | nil => cases hx
    | cons j xs ih =>
      intro s
      rw [List.foldl_cons]
      rcases List.mem_cons.mp hx with h | h
      · subst h
        refine (keep xs _).causes _ _ ?_
        rw [if_pos (show set.has i.val = true from hset)]
        exact raiseCause_has_self ha
      · exact ih h _
  exact reach allStations (by clear * -; revert i; decide) s

/-! ## One lot's count -/

theorem counted_lots (k : Slot) (l : Lot) (b : Bobbin) (s : State) :
    (counted k l b.wound.mm s).lots = s.lots.set k (some (filled l b)) := by
  unfold counted filled
  extract_lets l'
  split
  · rw [(raiseOnAll_move ..).lots, (raise_frame ..).lots]
    rfl
  · rfl

theorem counted_frame {k : Slot} {l : Lot} {s : State} (h : HasLot s k l) (mm : Nat) : LotFrame s (counted k l mm s) := by
  rw [← countDone_addProduced h]
  exact (modLot_lotFrame ..).trans (countDone_frame ..)

theorem counted_done {k : Slot} {l : Lot} {b : Bobbin} {s : State} (h : (filled l b).state ≠ l.state) {i : Sta}
    (hset : l.stations.getLsbD i.val = true) (hi : i ≠ staK0) :
    hasCause ((counted k l b.wound.mm s).station i).causes .lotEnd = true := by
  unfold counted
  extract_lets l'
  split
  · exact raiseOnAll_has hset hi _
  · next hn => exact absurd (if_neg hn) h

/-! ## What ends of fill leave -/

/-- A bobbin's record where the fills of `bs` have ended. -/
def endedAs (bs : List Bobbin) (b : Bobbin) : Bobbin := if b ∈ bs then takenOff b else b

theorem endedAs_append {bs bs' : List Bobbin} (h : ∀ b ∈ bs', b.state = .winding) (b : Bobbin) :
    endedAs bs' (endedAs bs b) = endedAs (bs ++ bs') b := by
  have hfull : takenOff b ∉ bs' := fun hm => (show BobbinState.full ≠ .winding by decide) (h _ hm)
  by_cases hb : b ∈ bs
  · rw [show endedAs bs b = takenOff b from if_pos hb, show endedAs bs' (takenOff b) = _ from if_neg hfull]
    exact (if_pos (List.mem_append_left _ hb)).symm
  · rw [show endedAs bs b = b from if_neg hb]
    refine if_congr ?_ rfl rfl
    rw [List.mem_append, or_iff_right hb]

/-- `t` is `s` but for the bobbins, the lot table, moves of stations and notices. -/
def EndFrame (s t : State) : Prop := LotFrame { s with bobbins := t.bobbins } t

theorem EndFrame.trans {s t u : State} (h : EndFrame s t) (k : EndFrame t u) : EndFrame s u := by
  have h' : LotFrame { s with bobbins := u.bobbins } { t with bobbins := u.bobbins } := by
    refine ⟨?_, h.2.1, h.2.2.1, h.2.2.2⟩
    have e := congrArg (fun x : State => { x with bobbins := u.bobbins }) h.1
    exact e
  exact h'.trans k

/-- `t` is `s` after the fills of `bs` have ended, each in turn. -/
structure Ended (s t : State) (bs : List Bobbin) : Prop where
  bobbins : t.bobbins = s.bobbins.map (endedAs bs)
  empty : ∀ k : Slot, s.lots[k] = none → t.lots[k] = none
  lots : ∀ k l, HasLot s k l → HasLot t k (filledBy bs l)
  done : ∀ k l, HasLot s k l → (filledBy bs l).state ≠ l.state → ∀ i : Sta, l.stations.getLsbD i.val = true → i ≠ staK0 →
    hasCause (t.station i).causes .lotEnd = true

theorem Ended.refl (s : State) : Ended s s [] := by
  refine ⟨?_, fun _ => id, fun _ _ => id, fun _ _ _ h => absurd rfl h⟩
  rw [show endedAs [] = id from funext fun b => if_neg List.not_mem_nil, List.map_id]

theorem Ended.trans {s t u : State} {bs bs' : List Bobbin} (h : Ended s t bs) (k : Ended t u bs')
    (hp : Pressed t u) (hbs : ∀ b ∈ bs', b.state = .winding) : Ended s u (bs ++ bs') := by
  refine ⟨?_, fun i => k.empty i ∘ h.empty i, fun i l hl => ?_, fun i l hl hst j hj hK => ?_⟩
  · rw [k.bobbins, h.bobbins, List.map_map]
    exact List.map_congr_left fun b _ => endedAs_append hbs b
  · rw [filledBy_append]
    exact k.lots i _ (h.lots i l hl)
  · rw [filledBy_append] at hst
    by_cases hsame : (filledBy bs l).state = l.state
    · rw [← hsame] at hst
      exact k.done i _ (h.lots i l hl) hst j (by rw [filledBy_stations]; exact hj) hK
    · exact hp.causes _ _ (h.done i l hl hsame j hj hK)

/-! ## One fill ended -/

/-- The bobbin whose fill a stop ends at a strander. -/
def endingOf (s : State) (j : Strander) : Option Bobbin :=
  (s.bobbinAt (.winding j)).filter fun b =>
    decide (b.state = .winding ∧ hasCause (s.station (strSta j)).causes .bobbinFull = true)

theorem endingOf_eq_some {s : State} {j : Strander} {b : Bobbin} :
    endingOf s j = some b ↔
      s.bobbinAt (.winding j) = some b ∧ b.state = .winding ∧ hasCause (s.station (strSta j)).causes .bobbinFull = true := by
  unfold endingOf
  rw [Option.filter_eq_some_iff, decide_eq_true_eq]

theorem fillsEnding_eq (s : State) : fillsEnding s = allStranders.filterMap (endingOf s) := by
  refine List.filterMap_congr fun j _ => ?_
  unfold endingOf
  cases hb : s.bobbinAt (.winding j) with
  | none => rfl
  | some b => simp [Option.filter]

theorem endingOf_congr {s t : State} {j : Strander} (hb : t.bobbinAt (.winding j) = s.bobbinAt (.winding j))
    (hp : Pressed s t) : endingOf t j = endingOf s j := by
  unfold endingOf
  rw [hb, hp.full]

/-- A table record rewritten under its id, the ids in order. -/
theorem withBobbin_eq_map {bs : List Bobbin} (hbs : bs.Pairwise fun x y => x.id < y.id) {b : Bobbin} (hb : b ∈ bs) :
    withBobbin (takenOff b) bs = bs.map (endedAs [b]) := by
  refine List.map_congr_left fun x hx => ?_
  show (if x.id = b.id then takenOff b else x) = if x ∈ [b] then takenOff x else x
  by_cases h : x = b
  · rw [h, if_pos rfl, if_pos (List.mem_singleton.mpr rfl)]
  · rw [if_neg fun e => h (eq_of_id_eq hbs hx hb e), if_neg fun e => h (List.mem_singleton.mp e)]

theorem filledBy_own {b : Bobbin} {l : Lot} (h : b.lot = some l.number) : filledBy [b] l = filled l b := by
  unfold filledBy
  rw [List.filter_cons_of_pos (by rw [h]; exact decide_eq_true rfl), List.filter_nil]
  rfl

theorem filledBy_other {b : Bobbin} {l : Lot} (h : b.lot ≠ some l.number) : filledBy [b] l = l := by
  unfold filledBy
  rw [List.filter_cons_of_neg (by simpa using h), List.filter_nil]
  rfl

/-- No fill ends where no WINDING bobbin stands under BOBBIN_FULL. -/
theorem endFill_none {s : State} {j : Strander} (h : endingOf s j = none) : endFill j s = s := by
  unfold endFill
  split
  · next hf =>
    split
    · next b hb =>
      refine if_neg fun hw => ?_
      rw [endingOf_eq_some.mpr ⟨hb, hw, hf.2⟩] at h
      cases h
    · rfl
  · rfl

/-- A bobbin taken off whose lot is not in the table. -/
theorem ended_uncounted {s : State} {b : Bobbin} (hs : IdsOk s) (hb : b ∈ s.bobbins)
    (hno : ∀ k l, HasLot s k l → b.lot ≠ some l.number) :
    Ended s (putBobbin (takenOff b) s) [b] := by
  refine ⟨withBobbin_eq_map hs hb, fun _ => id, fun k l hl => ?_,
    fun k l hl h => ?_⟩
  · rw [filledBy_other (hno k l hl)]
    exact HasLot.congr hl rfl
  · rw [filledBy_other (hno k l hl)] at h
    exact absurd rfl h

/-- A bobbin taken off and counted on its lot. -/
theorem ended_counted {s : State} {b : Bobbin} {k : Slot} {l : Lot} (hs : IdsOk s) (hb : b ∈ s.bobbins) (hl : HasLot s k l)
    (hn : b.lot = some l.number) :
    Ended s (counted k l b.wound.mm (putBobbin (takenOff b) s)) [b] := by
  have hlx : HasLot (putBobbin (takenOff b) s) k l := HasLot.congr hl rfl
  have hframe := counted_frame hlx b.wound.mm
  have hbob : (counted k l b.wound.mm (putBobbin (takenOff b) s)).bobbins = withBobbin (takenOff b) s.bobbins := by
    rw [hframe.1]
    rfl
  have hlots : (counted k l b.wound.mm (putBobbin (takenOff b) s)).lots = (s.setLot k (some (filled l b))).lots :=
    counted_lots ..
  have hdone {i : Sta} (h : (filled l b).state ≠ l.state) (hset : l.stations.getLsbD i.val = true) (hi : i ≠ staK0) :
      hasCause ((counted k l b.wound.mm (putBobbin (takenOff b) s)).station i).causes .lotEnd = true :=
    counted_done h hset hi
  generalize counted k l b.wound.mm (putBobbin (takenOff b) s) = t at *
  have hself {m : Lot} {k' : Slot} (hm : HasLot s k' m) (e : b.lot = some m.number) : k' = k ∧ m = l := by
    rw [hn] at e
    obtain ⟨hslot, hm⟩ := hm
    rw [← Option.some.inj e, hl.1] at hslot
    cases hslot
    rw [hl.2] at hm
    cases hm
    exact ⟨rfl, rfl⟩
  refine ⟨hbob.trans (withBobbin_eq_map hs hb), fun k' h => ?_, fun k' m hm => ?_, fun k' m hm h i hset hi => ?_⟩
  · have hne : k' ≠ k := fun e => by rw [e, hl.2] at h; cases h
    rw [hlots, setLot_lots_ne _ _ _ _ hne, h]
  · by_cases e : b.lot = some m.number
    · obtain ⟨rfl, rfl⟩ := hself hm e
      rw [filledBy_own e]
      exact HasLot.congr (hasLot_setLot hl rfl) hlots
    · rw [filledBy_other e]
      have hne : k' ≠ k := fun h => e (by rw [h] at hm; rw [hn, Option.some.inj (hm.2.symm.trans hl.2)])
      refine HasLot.congr (s := s.setLot k (some (filled l b))) ⟨?_, ?_⟩ hlots
      · rw [slotOf_setLot (l' := filled l b) hl.2 rfl]
        exact hm.1
      · rw [setLot_lots_ne _ _ _ _ hne]
        exact hm.2
  · by_cases e : b.lot = some m.number
    · obtain ⟨-, rfl⟩ := hself hm e
      rw [filledBy_own e] at h
      exact hdone h hset hi
    · rw [filledBy_other e] at h
      exact absurd rfl h

/-- The end of a fill, by the bobbin's lot. -/
theorem endFill_lot {s : State} {j : Strander} {b : Bobbin} (hh : (s.station (strSta j)).state = .halted)
    (h : endingOf s j = some b) :
    endFill j s = match b.lot with
      | some n => countDone n (addProduced n b.wound.mm (putBobbin (takenOff b) s))
      | none => putBobbin (takenOff b) s := by
  obtain ⟨hb, hw, hf⟩ := endingOf_eq_some.mp h
  unfold endFill
  rw [if_pos ⟨hh, hf⟩, hb]
  dsimp only
  rw [if_pos hw] <;> rfl

/-- A fill ended at a strander that is HALTED. -/
theorem endFill_ended {s : State} {j : Strander} {b : Bobbin} (hs : IdsOk s) (hh : (s.station (strSta j)).state = .halted)
    (h : endingOf s j = some b) : Ended s (endFill j s) [b] := by
  obtain ⟨hb, hw, hf⟩ := endingOf_eq_some.mp h
  have hmem : b ∈ s.bobbins := List.mem_of_find?_eq_some hb
  cases hn : b.lot with
  | none =>
    rw [endFill_lot hh h, hn]
    exact ended_uncounted hs hmem fun k l _ => by rw [hn]; simp
  | some n =>
    cases hl : s.lot? n with
    | none =>
      have hl' : (putBobbin (takenOff b) s).lot? n = none := hl
      rw [endFill_lot hh h, hn]
      dsimp only
      unfold countDone addProduced checkComplete
      rw [modLot_of_none hl', modLot_of_none hl', hl']
      refine ended_uncounted hs hmem fun k l hk e => ?_
      rw [hn] at e
      cases e
      rw [hasLot_lot? hk] at hl
      cases hl
    | some l =>
      obtain ⟨k, hk⟩ := lot?_hasLot hl
      have hn' : b.lot = some l.number := by rw [hn, lot?_number hl]
      rw [endFill_eq hh hf hb hw hn' hk]
      exact ended_counted hs hmem hk hn'

/-! ## The fills of several stranders -/

theorem countDone_pressed (n : Nat) (s : State) : Pressed s (countDone n s) := by
  have hmod (f : Lot → Lot) (u : State) : Pressed u (modLot n f u) := .of_stations fun i => by rw [modLot_frame]; rfl
  unfold countDone
  refine (hmod (fun l => { l with done := l.done + 1 }) s).trans ?_
  unfold checkComplete
  split
  · split
    · refine Pressed.trans ?_ (raiseOnAll_pressed _ _ (by decide))
      exact .of_stations fun i => moveLot_station ..
    · exact .refl _
  · exact .refl _

theorem endFill_pressed (j : Strander) (s : State) : Pressed s (endFill j s) := by
  have hput (b : Bobbin) : Pressed s (putBobbin b s) := .of_stations fun _ => rfl
  have hmod (n mm : Nat) (u : State) : Pressed u (addProduced n mm u) := .of_stations fun i => by
    unfold addProduced
    rw [modLot_frame]
    rfl
  unfold endFill
  split
  · split
    · split
      · dsimp only
        split
        · exact (hput _).trans ((hmod ..).trans (countDone_pressed ..))
        · exact hput _
      · exact .refl s
    · exact .refl s
  · exact .refl s

theorem EndFrame.refl (s : State) : EndFrame s s := LotFrame.refl s

theorem endFill_frame (j : Strander) (s : State) : EndFrame s (endFill j s) := by
  have hput (b : Bobbin) : EndFrame s (putBobbin b s) := LotFrame.refl _
  have hlot {u v : State} (h : LotFrame u v) : EndFrame u v := by
    have e : v.bobbins = u.bobbins := by rw [h.1]
    unfold EndFrame
    rw [e]
    exact h
  unfold endFill
  split
  · split
    · split
      · dsimp only
        split
        · exact (hput _).trans (hlot ((modLot_lotFrame ..).trans (countDone_frame ..)))
        · exact hput _
      · exact .refl s
    · exact .refl s
  · exact .refl s

theorem foldl_endFill_pressed (js : List Strander) (s : State) : Pressed s (js.foldl (fun s j => endFill j s) s) :=
  foldl_frame (F := Pressed) .refl .trans _ (fun s j => endFill_pressed j s) js s

theorem foldl_endFill_frame (js : List Strander) (s : State) : EndFrame s (js.foldl (fun s j => endFill j s) s) :=
  foldl_frame (F := EndFrame) .refl .trans _ (fun s j => endFill_frame j s) js s

/-- The fills of stranders that are HALTED under BOBBIN_FULL end each in turn. -/
theorem foldl_endFill_ended (js : List Strander) (hnd : js.Nodup) : ∀ s : State, IdsOk s →
    (∀ j ∈ js, hasCause (s.station (strSta j)).causes .bobbinFull = true → (s.station (strSta j)).state = .halted) →
    Ended s (js.foldl (fun s j => endFill j s) s) (js.filterMap (endingOf s)) := by
  induction js with
  | nil => exact fun s _ _ => .refl s
  | cons j js ih =>
    intro s hs hh
    obtain ⟨hj, hnd⟩ := List.nodup_cons.mp hnd
    have hp := endFill_pressed j s
    rw [List.foldl_cons]
    cases h : endingOf s j with
    | none =>
      rw [endFill_none h, List.filterMap_cons_none h]
      exact ih hnd s hs fun k hk => hh k (List.mem_cons_of_mem j hk)
    | some b =>
      obtain ⟨hb, hw, hf⟩ := endingOf_eq_some.mp h
      have hmem : b ∈ s.bobbins := List.mem_of_find?_eq_some hb
      have hpl : b.place = some (.winding j) := by simpa using List.find?_some hb
      have hone := endFill_ended hs (hh j List.mem_cons_self hf) h
      have hbob : (endFill j s).bobbins = withBobbin (takenOff b) s.bobbins := by
        rw [hone.bobbins, withBobbin_eq_map hs hmem]
      have hs' : IdsOk (endFill j s) := by
        unfold IdsOk
        rw [hbob]
        exact pairwise_withBobbin _ hs
      have hsame : js.filterMap (endingOf (endFill j s)) = js.filterMap (endingOf s) := by
        refine List.filterMap_congr fun k hk => endingOf_congr ?_ hp
        have hne : b.place ≠ some (.winding k) := by
          rw [hpl]
          exact fun e => hj (by cases e; exact hk)
        exact bobbinAt_withBobbin_ne (b' := takenOff b) hs hmem rfl (by simp [takenOff]) hne hbob
      have hrest := ih hnd (endFill j s) hs' fun k hk hfk =>
        hp.halted _ (hh k (List.mem_cons_of_mem j hk) (by rw [← hp.full]; exact hfk))
      rw [hsame] at hrest
      rw [List.filterMap_cons_some h]
      refine hone.trans hrest (foldl_endFill_pressed ..) fun x hx => ?_
      obtain ⟨k, -, hk⟩ := List.mem_filterMap.mp hx
      exact (endingOf_eq_some.mp hk).2.1

/-! ## The whole stop (R8, R9) -/

theorem stopAll_eq (c : Cause) (s : State) : stopAll c s = allStranders.foldl (fun s j => endFill j s) (allStopped c s) := rfl

theorem foldl_fixed {α : Type} {f : State → α → State} {s : State} (h : ∀ x, f s x = s) (xs : List α) : xs.foldl f s = s := by
  induction xs with
  | nil => rfl
  | cons x xs ih => rw [List.foldl_cons, h, ih]

theorem stopAll_pressed (c : Cause) (s : State) : Pressed (allStopped c s) (stopAll c s) := foldl_endFill_pressed ..

theorem stopAll_frame (c : Cause) (s : State) : EndFrame s (stopAll c s) := by
  have h : EndFrame s (allStopped c s) := by
    have hm := allStopped_move c s
    unfold EndFrame
    rw [hm.bobbins]
    exact LotFrame.ofMove hm
  exact h.trans (foldl_endFill_frame ..)

/-- Every station that holds a lot is stopped under the cause. -/
theorem stopAll_stops {c : Cause} {s : State} {i : Sta} (hc : c ≠ .bobbinFull) (ha : c.admissible (kindOf i) = true)
    (hok : StationOk i (s.station i)) (hl : (s.station i).lot ≠ none) :
    Stopped c (s.station i) ((stopAll c s).station i) := (allStopped_stops hc ha hok hl).press (stopAll_pressed c s)

/-- With BOBBIN_FULL on no strander the stop ends no fill. -/
theorem stopAll_eq_allStopped {c : Cause} {s : State} (hc : c ≠ .bobbinFull)
    (h : ∀ j : Strander, hasCause (s.station (strSta j)).causes .bobbinFull = false) : stopAll c s = allStopped c s := by
  have hnone (j : Strander) : endFill j (allStopped c s) = allStopped c s := by
    refine endFill_idle (.inr ?_)
    unfold State.has
    rw [(allStopped_pressed s hc).full, h]
  rw [stopAll_eq]
  exact foldl_fixed (f := fun s j => endFill j s) hnone allStranders

/-- A strander in order under BOBBIN_FULL is HALTED by the stop, or was so without a lot. -/
theorem allStopped_full_halted {c : Cause} {s : State} {j : Strander} (hc : c ≠ .bobbinFull)
    (ha : c.admissible (kindOf (strSta j)) = true) (hok : StationOk (strSta j) (s.station (strSta j)))
    (hf : hasCause (s.station (strSta j)).causes .bobbinFull = true) :
    ((allStopped c s).station (strSta j)).state = .halted := by
  obtain ⟨hkind, hfree, -⟩ := id hok
  by_cases hl : (s.station (strSta j)).lot = none
  · rw [allStopped_idle hl, hfree hl, if_neg (ne_zero_of_hasCause hf)]
  · refine (allStopped_stops hc ha hok hl).2.resolve_right fun h => ?_
    rw [h.1] at hkind
    have hno : stateOfKind (kindOf (strSta j)) .rowHold = false := by clear * -; revert j; decide
    rw [hno] at hkind
    cases hkind

/-- Stations in order: the fills that end at the stop are those of `fillsEnding`. -/
theorem stopAll_fillsEnd {c : Cause} {s : State} (hc : c ≠ .bobbinFull) (ha : ∀ i, c.admissible (kindOf i) = true)
    (hok : ∀ i, StationOk i (s.station i)) (hs : IdsOk s) : FillsEnd s (stopAll c s) := by
  have hm := allStopped_move c s
  have hp := allStopped_pressed s hc
  have hs' : IdsOk (allStopped c s) := by unfold IdsOk; rw [hm.bobbins]; exact hs
  have hsame : allStranders.filterMap (endingOf (allStopped c s)) = fillsEnding s := by
    rw [fillsEnding_eq]
    exact List.filterMap_congr fun j _ => endingOf_congr (bobbinAt_congr hm.bobbins _) hp
  have hend := foldl_endFill_ended allStranders (by decide) (allStopped c s) hs' fun j _ hf =>
    allStopped_full_halted hc (ha _) (hok _) (by rw [← hp.full]; exact hf)
  rw [← stopAll_eq, hsame] at hend
  refine ⟨?_, fun k h => hend.empty k ?_, fun k l hl => ⟨?_, fun h => ?_⟩⟩
  · rw [hend.bobbins, hm.bobbins]
    rfl
  · rw [hm.lots]; exact h
  · exact (hend.lots k l (HasLot.congr hl hm.lots)).2
  · exact hend.done k l (HasLot.congr hl hm.lots) h

end Sys2Proof.Laws
end

section
/-! Supply low (O52) and the RESET input (O54). -/

namespace Sys2Proof.Laws

open Sys2Proof.Machine Sys2Proof.Safety

theorem power_admissible (i : Sta) : Cause.power.admissible (kindOf i) = true := by revert i; decide
theorem reset_admissible (i : Sta) : Cause.reset.admissible (kindOf i) = true := by revert i; decide

/-- The state at the beginning of the save, its stations as the stop leaves them. -/
theorem beginSave_eq (s : State) :
    beginSave s =
      { s with
        power := .saving, supplyGood := false, commit := none, imageValid := false, image := (beginSave s).image
        stations := (beginSave s).stations, twists := (beginSave s).twists, ports := (beginSave s).ports
        queues := (beginSave s).queues, lots := (beginSave s).lots, bobbins := (beginSave s).bobbins
        meter := { s.meter with slipOpen := false, winCap := 0, winWheel := 0 }
        coiler := { s.coiler with markMs := none } } := by
  have h := (stopAll_frame .power s).1
  unfold beginSave
  generalize stopAll .power s = u at h
  dsimp only [discardSlip, State.setMeter, State.setCoiler]
  rw [h]

theorem beginSave_image (s : State) : (beginSave s).image = (beginSave s).toImage := by
  unfold beginSave
  generalize stopAll .power s = u
  rfl

theorem beginSave_station (s : State) (i : Sta) : (beginSave s).station i = (stopAll .power s).station i := by
  unfold beginSave
  generalize stopAll .power s = u
  rfl

theorem beginSave_lots (s : State) : (beginSave s).lots = (stopAll .power s).lots ∧
    (beginSave s).bobbins = (stopAll .power s).bobbins := by
  unfold beginSave
  generalize stopAll .power s = u
  exact ⟨rfl, rfl⟩

theorem beginSave_port (s : State) (q : Port) : (beginSave s).port q = ((stopAll .power s).port q).cutOff := by
  unfold beginSave
  generalize stopAll .power s = u
  exact vector_ofFn_get _ q

/-- What the ends of fill leave is read from the bobbins, the lots and the causes alone. -/
theorem FillsEnd.congr {s t u : State} (h : FillsEnd s t) (hb : u.bobbins = t.bobbins) (hl : u.lots = t.lots)
    (hc : ∀ i, (u.station i).causes = (t.station i).causes) : FillsEnd s u := by
  unfold FillsEnd at *
  simp only [hb, hl, hc]
  exact h

/-! ## The line reset (R192) -/

theorem EndFrame.acc {s t : State} (h : EndFrame s t) (k : Twi) : (t.twist k).acc = (s.twist k).acc := by
  unfold EndFrame LotFrame MoveFrame at h
  obtain ⟨-, -, -, hacc⟩ := h
  exact hacc k

theorem EndFrame.lot {s t : State} (h : EndFrame s t) (i : Sta) : (t.station i).lot = (s.station i).lot := by
  unfold EndFrame LotFrame MoveFrame at h
  obtain ⟨-, -, hrec, -⟩ := h
  exact (hrec i).2

theorem takeLineReset_eq (s : State) :
    takeLineReset s =
      { s with
        resetPin := .spent, lots := (takeLineReset s).lots, bobbins := (takeLineReset s).bobbins
        stations := (takeLineReset s).stations
        twists := .ofFn fun k => .fresh (s.twist k).acc
        channels := .ofFn fun c => { s.channel c with pending := none }
        ports := .replicate 4 (.fresh s.nowMs)
        queues := restartQueues wordLineReset s.worksClock
        meter := .cold
        coiler := { s.coiler with markMs := none } } := by
  have h := (stopAll_frame .reset s).1
  have hacc : ∀ k, ((stopAll .reset s).twist k).acc = (s.twist k).acc :=
    EndFrame.acc (stopAll_frame .reset s)
  unfold takeLineReset
  generalize stopAll .reset s = u at h hacc
  dsimp only
  simp only [hacc]
  rw [h]
  rfl

theorem takeLineReset_station (s : State) (i : Sta) : (takeLineReset s).station i = ((stopAll .reset s).station i).saved := by
  unfold takeLineReset
  generalize stopAll .reset s = u
  exact vector_ofFn_get _ i

theorem takeLineReset_lots (s : State) : (takeLineReset s).lots = (stopAll .reset s).lots ∧
    (takeLineReset s).bobbins = (stopAll .reset s).bobbins := by
  unfold takeLineReset
  generalize stopAll .reset s = u
  exact ⟨rfl, rfl⟩

theorem execLineReset_held {s : State} {since : Nat} (hp : s.power = .running) (h : s.resetPin = .held since) :
    exec .lineReset s = .next (takeLineReset (s.advanceUs (since + 1000))) := by
  refine next_of_running hp ?_
  rw [h]
  rfl

theorem execLineReset_idle {s : State} (h : s.resetPin = .released ∨ s.resetPin = .spent) : exec .lineReset s = .next s := by
  show execLineReset s = _
  unfold execLineReset whenRunning
  split
  · dsimp only
    rcases h with h | h <;> rw [h]
  · rfl

end Sys2Proof.Laws

namespace Sys2Proof.Proofs

open Sys2Proof.Machine Sys2Proof.Safety Sys2Proof.Laws

/-- Settles O52: the save begins with `stopAll`, whose effect on stations, bobbins and lots is `stopAll_stops` and
`stopAll_fillsEnd`. -/
theorem supplyLowSavesAStoppedPart : Obligations.SupplyLowSavesAStoppedPart := by
  intro s hok
  have hsta (i : Sta) : StationOk i (s.station i) := (hok i).1
  have hexec (h : s.power = .running) : exec .supplyLow s = .next (beginSave s) := by
    show execSupplyLow s = _
    unfold execSupplyLow
    rw [h]
  obtain ⟨hlots, hbobs⟩ := beginSave_lots s
  refine ⟨fun h => ⟨beginSave s, hexec h, beginSave_eq s, beginSave_image s, fun i hl => ?_, fun q => ?_, fun hB => ?_,
    fun hf => ?_⟩, fun h => ?_, fun h => ?_⟩
  · rw [beginSave_station]
    exact stopAll_stops (by decide) (power_admissible i) (hsta i) hl
  · rw [beginSave_port]
    exact ⟨rfl, rfl, rfl⟩
  · exact FillsEnd.congr (stopAll_fillsEnd (c := .power) (by decide) power_admissible hsta hB.1.2.1) hbobs hlots fun i => by
      rw [beginSave_station]
  · have e := stopAll_eq_allStopped (c := .power) (by decide) hf
    have hm := allStopped_move .power s
    rw [e] at hlots hbobs
    refine ⟨hlots.trans hm.lots, hbobs.trans hm.bobbins, fun i hl => ?_⟩
    rw [beginSave_station, e, allStopped_idle hl]
  · show execSupplyLow s = _
    unfold execSupplyLow
    rcases h with h | h <;> rw [h]
  · show execSupplyLow s = _
    unfold execSupplyLow
    rw [h]

/-- Settles O54: the reset stops the part by `stopAll` and then keeps what `takeLineReset_eq` names. -/
theorem resetStopsAndKeeps : Obligations.ResetStopsAndKeeps := by
  intro s
  refine ⟨fun hpin hp => ?_, fun hpin hp => ?_, fun hpin => ?_, rfl, execLineReset_idle, fun since hpin hp hok => ?_⟩
  · show execResetAssert s = _
    unfold execResetAssert
    rw [hpin]
    dsimp only
    rw [if_pos hp]
  · show execResetAssert s = _
    unfold execResetAssert
    rw [hpin]
    dsimp only
    rw [if_neg hp]
  · show execResetAssert s = _
    unfold execResetAssert
    split
    · next h => exact absurd h hpin
    · rfl
  · intro now
    have hadv (i : Sta) : (s.advanceUs (since + 1000)).station i = s.station i := rfl
    have hsta (i : Sta) : StationOk i ((s.advanceUs (since + 1000)).station i) := (hok i).1
    have hlot := fun i => EndFrame.lot (stopAll_frame .reset (s.advanceUs (since + 1000))) i
    have hstop := fun i => stopAll_stops (c := .reset) (by decide) (reset_admissible i) (hsta i)
    have hend := stopAll_fillsEnd (c := .reset) (by decide) reset_admissible hsta
    have hcalm := stopAll_eq_allStopped (c := .reset) (s := s.advanceUs (since + 1000)) (by decide)
    have hm := allStopped_move .reset (s.advanceUs (since + 1000))
    have hidle := fun i => allStopped_idle (c := .reset) (s := s.advanceUs (since + 1000)) (i := i)
    have hrec := takeLineReset_station (s.advanceUs (since + 1000))
    obtain ⟨hlots, hbobs⟩ := takeLineReset_lots (s.advanceUs (since + 1000))
    refine ⟨_, execLineReset_held hp hpin, takeLineReset_eq (s.advanceUs (since + 1000)), ?_⟩
    generalize takeLineReset (s.advanceUs (since + 1000)) = t at *
    simp only [hadv] at hlot hstop hcalm hidle
    generalize allStopped .reset (s.advanceUs (since + 1000)) = v at *
    generalize stopAll .reset (s.advanceUs (since + 1000)) = w at *
    refine ⟨fun i => ?_, fun i hl => ?_, fun hB => ?_, fun hf => ?_⟩
    · rw [hrec]
      exact ⟨rfl, rfl, hlot i⟩
    · rw [hrec]
      exact hstop i hl
    · have hend : FillsEnd s w := hend hB.1.2.1
      exact FillsEnd.congr hend hbobs hlots fun i => by rw [hrec]; rfl
    · have e := hcalm hf
      subst e
      refine ⟨hlots.trans hm.lots, hbobs.trans hm.bobbins, fun i hl => ?_⟩
      rw [hrec, hidle i hl]
      rfl

end Sys2Proof.Proofs
end

section
/-! The writers of settings and calibration items (R187, R188). -/

namespace Sys2Proof.Laws

open Sys2Proof.Machine Sys2Proof.Safety

/-! ## Codes and numbers (R17, R186) -/

/-- An enumerated value written: the setting at its code. -/
theorem map_ofCode {α : Type} {ofCode : Nat → Option α} {codes : List α} (h : ∀ v, ofCode v = codes[v]?)
    (f : α → Settings) (v : Nat) :
    (ofCode v).map (fun x => (f x, false)) = ((codes.map f)[v]?).map fun x => (x, false) := by
  rw [h, List.getElem?_map, Option.map_map]
  rfl

theorem retryWait_ofCode (v : Nat) : RetryWait.ofCode v = [.off, .s2, .s10, .s30][v]? := by
  match v with
  | 0 | 1 | 2 | 3 | n + 4 => rfl

theorem scale_ofCode (v : Nat) : Scale.ofCode v = [.ms20, .ms80, .ms320, .ms1280][v]? := by
  match v with
  | 0 | 1 | 2 | 3 | n + 4 => rfl

theorem silence_ofCode (v : Nat) : Silence.ofCode v = [.off, .ms200, .ms500, .ms1000, .ms2000][v]? := by
  match v with
  | 0 | 1 | 2 | 3 | 4 | n + 5 => rfl

theorem edgeMode_ofCode (v : Nat) : EdgeMode.ofCode v = [.off, .rise, .fall, .both][v]? := by
  match v with
  | 0 | 1 | 2 | 3 | n + 4 => rfl

theorem filter_ofCode (v : Nat) : Filter.ofCode v = [.off, .us20, .us100, .us500][v]? := by
  match v with
  | 0 | 1 | 2 | 3 | n + 4 => rfl

theorem clampNat_eq {lo hi : Nat} (h : lo ≤ hi) (v : Nat) : clampNat lo hi v = max lo (min hi v) := by
  unfold clampNat
  split
  · next hv => rw [Nat.min_eq_right (hv.le.trans h), Nat.max_eq_left hv.le]
  · next hv =>
    split
    · next hv' => rw [Nat.min_eq_left hv'.le, Nat.max_eq_right h]
    · next hv' => rw [Nat.min_eq_right (by omega), Nat.max_eq_right (by omega)]

/-- A number written: clamped, and reported where that changed it. -/
theorem num_eq {lo hi : Nat} (h : lo ≤ hi) (v : Nat) (f : Nat → Settings) :
    some (f (clampNat lo hi v), clampNat lo hi v != v) =
      some (f (max lo (min hi v)), decide (max lo (min hi v) ≠ v)) := by
  rw [clampNat_eq h]
  congr 2
  by_cases e : max lo (min hi v) = v <;> simp [e]

/-! ## Calibration items (R188) -/

theorem calItem_edge (k : Chan) : calItem k.val = some (.edge k) := dif_pos k.isLt
theorem calItem_filter (k : Chan) : calItem (16 + k.val) = some (.filter k) := by
  unfold calItem
  rw [dif_neg (by omega), dif_pos (by omega)]
  exact congrArg (some ∘ CalItem.filter) (Fin.ext (Nat.add_sub_cancel_left ..))

theorem calItem_capstan (t : Twi) : calItem (32 + t.val) = some (.capstan t) := by
  unfold calItem
  rw [dif_neg (by omega), dif_neg (by omega), dif_pos (by omega)]
  exact congrArg (some ∘ CalItem.capstan) (Fin.ext (Nat.add_sub_cancel_left ..))

theorem calItem_flyer (t : Twi) : calItem (40 + t.val) = some (.flyer t) := by
  unfold calItem
  rw [dif_neg (by omega), dif_neg (by omega), dif_neg (by omega), dif_pos (by omega)]
  exact congrArg (some ∘ CalItem.flyer) (Fin.ext (Nat.add_sub_cancel_left ..))

theorem calItem_none {code : Nat}
    (h : 10 < code ∧ code < 16 ∨ 26 < code ∧ code < 32 ∨ 36 < code ∧ code < 40 ∨ 44 < code ∧ code < 48 ∨ 48 < code) :
    calItem code = none := by
  unfold calItem
  rw [dif_neg (by omega), dif_neg (by omega), dif_neg (by omega), dif_neg (by omega), if_neg (by omega)]

/-! ## What is moving (R18) -/

theorem twistMoving_iff {t : Twi} {s : State} :
    twistMoving t s = true ↔ (s.station (twiSta t)).state = .runUp ∨ (s.station (twiSta t)).state = .steady ∨
      (s.station (twiSta t)).state = .runDown := by
  unfold twistMoving
  cases (s.station (twiSta t)).state <;> simp [RunState.twistRuns]

theorem winds_iff {x : Arbor} : x.winds = true ↔ ∃ c, x = .busy .winding c ∨ x = .busy .slowing c := by
  cases x with
  | free => simp [Arbor.winds]
  | busy ph c => cases ph <;> simp [Arbor.winds, ArborPhase.winds]

theorem wheelMoving_iff {s : State} :
    wheelMoving s = true ↔ ∃ id c, s.arbor id = .busy .winding c ∨ s.arbor id = .busy .slowing c := by
  have h : wheelMoving s = true ↔ s.coiler.a.winds = true ∨ s.coiler.b.winds = true := by
    unfold wheelMoving State.windingArbor
    cases s.coiler.a.winds <;> cases s.coiler.b.winds <;> simp
  rw [h, winds_iff, winds_iff]
  exact ⟨fun h => h.elim (fun h => ⟨.a, h⟩) fun h => ⟨.b, h⟩, fun ⟨id, h⟩ => by
    cases id with
    | a => exact .inl h
    | b => exact .inr h⟩

/-- The item codes of a twisting station's channels and constants. -/
def twistCodes (t : Twi) : List Nat := [2 * t.val, 2 * t.val + 1, 16 + 2 * t.val, 17 + 2 * t.val, 32 + t.val, 40 + t.val]

theorem mem_twistCodes {n : Nat} {t : Twi} : n ∈ twistCodes t ↔
    n = 2 * t.val ∨ n = 2 * t.val + 1 ∨ n = 16 + 2 * t.val ∨ n = 17 + 2 * t.val ∨ n = 32 + t.val ∨ n = 40 + t.val := by
  simp [twistCodes]

/-- What an item belongs to is moving. -/
def movingItem (s : State) (x : CalItem) : Bool :=
  match x with
  | .edge c | .filter c => chanMoving c s
  | .capstan t | .flyer t => twistMoving t s
  | .wheel => wheelMoving s

/-- What an item code moves with: one twisting station, the wheel, or nothing. -/
theorem calMoving_cases (s : State) (code : Byte) (v : BitVec 32) :
    (∃ t, (∀ t', code.toNat ∈ twistCodes t' ↔ t' = t) ∧ calMoving s (code, v) = twistMoving t s ∧
      ¬(code.toNat = 10 ∨ code.toNat = 26 ∨ code.toNat = 48)) ∨
    ((∀ t', code.toNat ∉ twistCodes t') ∧ (code.toNat = 10 ∨ code.toNat = 26 ∨ code.toNat = 48) ∧
      calMoving s (code, v) = wheelMoving s) ∨
    ((∀ t', code.toNat ∉ twistCodes t') ∧ ¬(code.toNat = 10 ∨ code.toNat = 26 ∨ code.toNat = 48) ∧
      calMoving s (code, v) = false) := by
  have one (t : Twi) (h : ∀ t' : Twi, code.toNat = 2 * t'.val ∨ code.toNat = 2 * t'.val + 1 ∨ code.toNat = 16 + 2 * t'.val ∨
      code.toNat = 17 + 2 * t'.val ∨ code.toNat = 32 + t'.val ∨ code.toNat = 40 + t'.val ↔ t'.val = t.val) (t' : Twi) :
      code.toNat ∈ twistCodes t' ↔ t' = t := by rw [mem_twistCodes, h t', Fin.ext_iff]
  have item {n : Nat} {x : CalItem} (hn : code.toNat = n) (h : calItem n = some x) :
      calMoving s (code, v) = movingItem s x := by
    unfold calMoving
    rw [show calItem (code, v).1.toNat = some x from hn ▸ h]
    cases x <;> rfl
  have hchan (k : Nat) (hk : k < 10) : chanMoving ⟨k, by omega⟩ s = twistMoving ⟨k / 2, by omega⟩ s := dif_pos hk
  by_cases h1 : code.toNat < 10
  · refine .inl ⟨⟨code.toNat / 2, by omega⟩, one _ fun t' => ?_, ?_, by omega⟩
    · have := t'.isLt; dsimp only; omega
    · rw [item rfl (calItem_edge ⟨code.toNat, by omega⟩)]
      exact hchan _ h1
  by_cases h2 : 16 ≤ code.toNat ∧ code.toNat < 26
  · obtain ⟨k, hk⟩ : ∃ k, code.toNat = 16 + k := ⟨code.toNat - 16, by omega⟩
    refine .inl ⟨⟨k / 2, by omega⟩, one _ fun t' => ?_, ?_, by omega⟩
    · have := t'.isLt; dsimp only; omega
    · rw [item hk (calItem_filter ⟨k, by omega⟩)]
      exact hchan k (by omega)
  by_cases h3 : 32 ≤ code.toNat ∧ code.toNat < 37
  · obtain ⟨k, hk⟩ : ∃ k, code.toNat = 32 + k := ⟨code.toNat - 32, by omega⟩
    refine .inl ⟨⟨k, by omega⟩, one _ fun t' => ?_, (item hk (calItem_capstan ⟨k, by omega⟩)).trans rfl, by omega⟩
    have := t'.isLt; dsimp only; omega
  by_cases h4 : 40 ≤ code.toNat ∧ code.toNat < 45
  · obtain ⟨k, hk⟩ : ∃ k, code.toNat = 40 + k := ⟨code.toNat - 40, by omega⟩
    refine .inl ⟨⟨k, by omega⟩, one _ fun t' => ?_, (item hk (calItem_flyer ⟨k, by omega⟩)).trans rfl, by omega⟩
    have := t'.isLt; dsimp only; omega
  have none_of (t' : Twi) : code.toNat ∉ twistCodes t' := by
    have := t'.isLt
    rw [mem_twistCodes]
    omega
  by_cases h5 : code.toNat = 10 ∨ code.toNat = 26 ∨ code.toNat = 48
  · refine .inr (.inl ⟨none_of, h5, ?_⟩)
    rcases h5 with h | h | h
    · rw [item h (calItem_edge 10)]; rfl
    · rw [item h (calItem_filter 10)]; rfl
    · rw [item (x := .wheel) h rfl]; rfl
  · refine .inr (.inr ⟨none_of, h5, ?_⟩)
    unfold calMoving
    rw [show calItem (code, v).1.toNat = none from calItem_none (code := code.toNat) (by omega)]

theorem calMoving_iff (s : State) (code : Byte) (v : BitVec 32) :
    calMoving s (code, v) = true ↔
      (∃ t : Twi, twistMoving t s = true ∧ code.toNat ∈ twistCodes t) ∨
        (code.toNat = 10 ∨ code.toNat = 26 ∨ code.toNat = 48) ∧ wheelMoving s = true := by
  rcases calMoving_cases s code v with ⟨t, hcodes, e, hw⟩ | ⟨hcodes, hw, e⟩ | ⟨hcodes, hw, e⟩
  · rw [e]
    simp [hcodes, hw]
  · rw [e]
    simp [hcodes, hw]
  · rw [e]
    simp [hcodes, hw]

end Sys2Proof.Laws
end

section
/-! The effects of written settings (R187): windows, run-ups and run-downs already past their limits. -/

namespace Sys2Proof.Laws

open Sys2Proof.Machine Sys2Proof.Safety

/-! ## Folds of steps that each concern one element -/

/-- Where a step leaves every other element's condition as it was, the conditions may be read before the fold. -/
theorem foldl_if_eq_filter {α : Type} {f : State → α → State} {cond : State → α → Bool} (xs : List α) (hnd : xs.Nodup)
    (h : ∀ s x y, y ≠ x → cond (f s x) y = cond s y) : ∀ s : State,
    xs.foldl (fun s x => if cond s x then f s x else s) s = (xs.filter (cond s)).foldl f s := by
  induction xs with
  | nil => exact fun _ => rfl
  | cons x xs ih =>
    intro s
    obtain ⟨hx, hnd⟩ := List.nodup_cons.mp hnd
    rw [List.foldl_cons, ih hnd]
    cases hc : cond s x with
    | false => rw [if_neg (by simp), List.filter_cons_of_neg (by rw [hc]; simp)]
    | true =>
      rw [if_pos rfl, List.filter_cons_of_pos (by rw [hc]), List.foldl_cons]
      refine congrArg (fun ys => ys.foldl f (f s x)) (List.filter_congr fun y hy => h s x y fun e => hx (e ▸ hy))

/-- The same of a fold that is made only where the request wrote the setting. -/
theorem gated_foldl {α : Type} {f : State → α → State} {cond : State → α → Bool} {p : α → Bool} {gate : Bool} {s : State}
    (xs : List α) (hnd : xs.Nodup) (h : ∀ s x y, y ≠ x → cond (f s x) y = cond s y) (hp : ∀ x, p x = (gate && cond s x)) :
    (if gate then xs.foldl (fun s x => if cond s x then f s x else s) s else s) = (xs.filter p).foldl f s := by
  rw [show p = fun x => gate && cond s x from funext hp]
  cases gate with
  | false => simp
  | true =>
    rw [if_pos rfl, foldl_if_eq_filter xs hnd h]
    simp

/-- A fold of steps that each rewrite one twisting station's own fields. -/
theorem foldl_twist {f : State → Twi → State} {g : Twist → Twist}
    (h : ∀ s t k, (f s t).twist k = if k = t then g (s.twist t) else s.twist k) (ts : List Twi) (hnd : ts.Nodup) :
    ∀ (s : State) (k : Twi), (ts.foldl f s).twist k = if k ∈ ts then g (s.twist k) else s.twist k := by
  induction ts with
  | nil => exact fun s k => by simp
  | cons t ts ih =>
    intro s k
    obtain ⟨ht, hnd⟩ := List.nodup_cons.mp hnd
    rw [List.foldl_cons, ih hnd, h]
    by_cases hk : k = t
    · subst hk
      rw [if_neg ht, if_pos rfl, if_pos List.mem_cons_self]
    · rw [if_neg hk]
      simp [hk]

/-- Two steps that agree while an invariant holds make the same fold. -/
theorem foldl_congr_of_inv {α : Type} {f f' : State → α → State} {I : State → Prop}
    (h : ∀ s x, I s → f s x = f' s x ∧ I (f s x)) (xs : List α) : ∀ s, I s → xs.foldl f s = xs.foldl f' s := by
  induction xs with
  | nil => exact fun _ _ => rfl
  | cons x xs ih =>
    intro s hs
    obtain ⟨e, hs'⟩ := h s x hs
    rw [List.foldl_cons, List.foldl_cons, ih _ hs', e]

/-! ## What a mark leaves unchanged -/

/-- `t` is `s` but for the twisting stations' own fields and notices. -/
def MarkFrame (s t : State) : Prop := NoticeFrame { s with twists := t.twists } t

namespace MarkFrame

theorem refl (s : State) : MarkFrame s s := NoticeFrame.refl s

theorem trans {s t u : State} (h : MarkFrame s t) (k : MarkFrame t u) : MarkFrame s u := by
  have h' : NoticeFrame { s with twists := u.twists } { t with twists := u.twists } := by
    refine ⟨?_, h.2⟩
    have e := congrArg (fun x : State => { x with twists := u.twists }) h.1
    exact e
  exact h'.trans k

theorem setTwist (s : State) (t : Twi) (w : Twist) : MarkFrame s (s.setTwist t w) := NoticeFrame.refl _

theorem of_notice {s t : State} (h : NoticeFrame s t) : MarkFrame s t := by
  unfold MarkFrame
  rw [show t.twists = s.twists by rw [h.1]]
  exact h

variable {s t : State} (h : MarkFrame s t)
include h

theorem station (i : Sta) : t.station i = s.station i := NoticeFrame.station h i
theorem settings : t.settings = s.settings := NoticeFrame.settings (s := { s with twists := t.twists }) h
theorem nowMs : t.nowMs = s.nowMs := congrArg (· / 1000) (NoticeFrame.now (s := { s with twists := t.twists }) h)
theorem port (q : Port) : ∃ o, t.port q = { s.port q with noticeOvf := o } := by
  unfold MarkFrame at h
  obtain ⟨-, hp⟩ := h
  exact hp q

end MarkFrame

/-! ## Each mark -/

/-- One twisting station's own fields rewritten, and a notice told unless a warning is disabled. -/
def marked (g : Twist → Twist) (w : Warning) (cls : NoticeClass) (d : BitVec 16) (s : State) (t : Twi) : State :=
  warn w cls (.station (twiSta t)) d (s.setTwist t (g (s.twist t)))

theorem marked_frame (g : Twist → Twist) (w : Warning) (cls : NoticeClass) (d : BitVec 16) (s : State) (t : Twi) :
    MarkFrame s (marked g w cls d s t) := (MarkFrame.setTwist s t _).trans (.of_notice (warn_frame ..))

theorem marked_twist (g : Twist → Twist) (w : Warning) (cls : NoticeClass) (d : BitVec 16) (s : State) (t k : Twi) :
    (marked g w cls d s t).twist k = if k = t then g (s.twist t) else s.twist k := by
  rw [← State.setTwist_twist]
  exact (warn_frame ..).twist k

/-- A mark with the time and the warnings of the request: `m` ms and the settings `c`. -/
def markedAt (c : Settings) (g : Twist → Twist) (bit : Nat) (cls : NoticeClass) (d : BitVec 16) (s : State) (t : Twi) : State :=
  if c.disable.getLsbD bit then s.setTwist t (g (s.twist t))
  else raise cls (.station (twiSta t)) d (s.setTwist t (g (s.twist t)))

theorem marked_eq_markedAt {s : State} {c : Settings} (h : s.settings = c) (g : Twist → Twist) (w : Warning)
    (cls : NoticeClass) (d : BitVec 16) (t : Twi) : marked g w cls d s t = markedAt c g w.idx cls d s t := by
  subst h
  rfl

/-- An expired window's fields. -/
def windowStalled (m : Nat) (w : Twist) : Twist := { w with lay := { w.lay with p := 0, dl := 0, openMs := m } }

theorem expireWindow_eq (t : Twi) (s : State) :
    expireWindow t s = marked (windowStalled s.nowMs) .windowStall .layWarn 0x502 s t := rfl

theorem longRunUp_eq (t : Twi) (s : State) :
    longRunUp t s = marked (fun w => { w with runUpLong := true }) .runUpLong .phaseWarn 0x500 s t := rfl

theorem longRunDown_eq (t : Twi) (s : State) :
    longRunDown t s = marked (fun w => { w with runDownLong := true }) .runDownLong .phaseWarn 0x501 s t := rfl

theorem foldl_expireWindow {s : State} {c : Settings} (h : s.settings = c) (ts : List Twi) :
    ts.foldl (fun s t => expireWindow t s) s = ts.foldl (markedAt c (windowStalled s.nowMs) 3 .layWarn 0x502) s := by
  refine foldl_congr_of_inv (I := fun u => u.settings = c ∧ u.nowMs = s.nowMs) (fun u t hu => ?_) ts s ⟨h, rfl⟩
  obtain ⟨hset, hnow⟩ := hu
  have hf := marked_frame (windowStalled u.nowMs) .windowStall .layWarn 0x502 u t
  refine ⟨?_, hf.settings.trans hset, hf.nowMs.trans hnow⟩
  rw [expireWindow_eq, marked_eq_markedAt hset, hnow]
  rfl

theorem foldl_marked {s : State} {c : Settings} (h : s.settings = c) (g : Twist → Twist) (w : Warning) (cls : NoticeClass)
    (d : BitVec 16) (ts : List Twi) : ts.foldl (marked g w cls d) s = ts.foldl (markedAt c g w.idx cls d) s := by
  refine foldl_congr_of_inv (I := fun u => u.settings = c) (fun u t hu => ⟨marked_eq_markedAt hu .., ?_⟩) ts s h
  exact (marked_frame g w cls d u t).settings.trans hu

theorem markedAt_frame (c : Settings) (g : Twist → Twist) (bit : Nat) (cls : NoticeClass) (d : BitVec 16) (s : State) (t : Twi) :
    MarkFrame s (markedAt c g bit cls d s t) := by
  unfold markedAt
  split
  · exact .setTwist ..
  · exact (MarkFrame.setTwist s t _).trans (.of_notice (raise_frame ..))

theorem markedAt_twist (c : Settings) (g : Twist → Twist) (bit : Nat) (cls : NoticeClass) (d : BitVec 16) (s : State)
    (t k : Twi) : (markedAt c g bit cls d s t).twist k = if k = t then g (s.twist t) else s.twist k := by
  rw [← State.setTwist_twist]
  unfold markedAt
  split
  · rfl
  · exact (raise_frame ..).twist k

theorem foldl_markedAt_frame (c : Settings) (g : Twist → Twist) (bit : Nat) (cls : NoticeClass) (d : BitVec 16)
    (ts : List Twi) (s : State) : MarkFrame s (ts.foldl (markedAt c g bit cls d) s) :=
  foldl_frame (F := MarkFrame) .refl .trans _ (markedAt_frame c g bit cls d) ts s

theorem foldl_markedAt_twist (c : Settings) (g : Twist → Twist) (bit : Nat) (cls : NoticeClass) (d : BitVec 16)
    (ts : List Twi) (hnd : ts.Nodup) (s : State) (k : Twi) :
    (ts.foldl (markedAt c g bit cls d) s).twist k = if k ∈ ts then g (s.twist k) else s.twist k :=
  foldl_twist (markedAt_twist c g bit cls d) ts hnd s k

/-! ## The three sets of marks -/

/-- The stations whose window, run-up and run-down are past the limits of `c`, where the request wrote the limit. -/
def stalledAt (wrote : Nat → Bool) (c : Settings) (s : State) (t : Twi) : Bool :=
  wrote 2 && (s.twist t).lay.isOpen && decide ((s.station (twiSta t)).state = .steady ∧
    (s.twist t).lay.openMs + c.windowLimit * 1000 ≤ s.nowMs)
def upLongAt (wrote : Nat → Bool) (c : Settings) (s : State) (t : Twi) : Bool :=
  wrote 4 && !(s.twist t).runUpLong && decide ((s.station (twiSta t)).state = .runUp ∧
    c.runUpLimit ≤ (s.twist t).runUp.reading s.nowMs)
def downLongAt (wrote : Nat → Bool) (c : Settings) (s : State) (t : Twi) : Bool :=
  wrote 5 && !(s.twist t).runDownLong && decide ((s.station (twiSta t)).state = .runDown ∧
    c.runDownLimit ≤ (s.twist t).runDown.reading s.nowMs)

/-- The marks of a request that wrote the settings `c`, in the model's order. -/
def marksMade (c : Settings) (stalled upLong downLong : Twi → Bool) (m : Nat) (s : State) : State :=
  (allTwists.filter downLong).foldl (markedAt c (fun w => { w with runDownLong := true }) 1 .phaseWarn 0x501)
    ((allTwists.filter upLong).foldl (markedAt c (fun w => { w with runUpLong := true }) 0 .phaseWarn 0x500)
      ((allTwists.filter stalled).foldl (markedAt c (windowStalled m) 3 .layWarn 0x502) s))

theorem marksMade_frame (c : Settings) (stalled upLong downLong : Twi → Bool) (m : Nat) (s : State) :
    MarkFrame s (marksMade c stalled upLong downLong m s) :=
  (foldl_markedAt_frame ..).trans ((foldl_markedAt_frame ..).trans (foldl_markedAt_frame ..))

/-- A twisting station's own fields after the marks. -/
theorem marksMade_twist (c : Settings) (stalled upLong downLong : Twi → Bool) (m : Nat) (s : State) (t : Twi) :
    (marksMade c stalled upLong downLong m s).twist t =
      { s.twist t with
        lay := if stalled t then { (s.twist t).lay with p := 0, dl := 0, openMs := m } else (s.twist t).lay
        runUpLong := (s.twist t).runUpLong || upLong t, runDownLong := (s.twist t).runDownLong || downLong t } := by
  have hall : t ∈ allTwists := by clear * -; revert t; decide
  have hnd (p : Twi → Bool) : (allTwists.filter p).Nodup := List.Nodup.filter _ (by decide)
  have hmem (p : Twi → Bool) : t ∈ allTwists.filter p ↔ p t = true := by rw [List.mem_filter, and_iff_right hall]
  unfold marksMade
  rw [foldl_markedAt_twist _ _ _ _ _ _ (hnd _), foldl_markedAt_twist _ _ _ _ _ _ (hnd _),
    foldl_markedAt_twist _ _ _ _ _ _ (hnd _)]
  simp only [hmem]
  cases stalled t <;> cases upLong t <;> cases downLong t <;> simp [windowStalled]

end Sys2Proof.Laws
end

section
/-! The effects of written settings (R187): ports already silent past their period, and all effects together. -/

namespace Sys2Proof.Laws

open Sys2Proof.Machine Sys2Proof.Safety

/-! ## A twisting station's own fields under another station's cause -/

theorem enterRunDown_twist_ne {t k : Twi} (h : t ≠ k) (s : State) : (enterRunDown k s).twist t = s.twist t := by
  unfold enterRunDown
  rw [moveTo_twist]
  exact State.setTwist_twist_ne _ _ _ _ h

theorem haltMove_twist_ne {i : Sta} {t : Twi} (h : twiSta t ≠ i) (s : State) : (haltMove i s).twist t = s.twist t := by
  have run : (match twistOf i with | some k => enterRunDown k s | none => s).twist t = s.twist t := by
    split
    · next k hk => exact enterRunDown_twist_ne (fun e => h (by rw [e]; exact twiSta_of_twistOf hk)) s
    · rfl
  unfold haltMove
  cases (s.station i).state
  case idle | standby | knotting | active => exact moveTo_twist ..
  case runUp | steady => exact run
  case runDown | halted | rowHold => rfl

theorem raiseOne_twist_ne {i : Sta} {t : Twi} (h : twiSta t ≠ i) (c : Cause) (s : State) :
    (raiseOne i c s).twist t = s.twist t := by
  unfold raiseOne
  split
  · rfl
  · rw [haltMove_twist_ne h, (raise_frame ..).twist]
    rfl

/-- Like the stations, a twisting station's own fields are touched by its own causes alone, C0's by K0's too (R4). -/
theorem raiseCause_twist_ne {i : Sta} {t : Twi} (h : twiSta t ≠ i) (h' : twiSta t ≠ staC0 ∨ i ≠ staK0) (c : Cause) (s : State) :
    (raiseCause i c s).twist t = s.twist t := by
  by_cases hi : i = staK0
  · unfold raiseCause coilerHalted
    split
    · rw [raiseOne_twist_ne (h'.resolve_right (not_not.mpr hi)), raiseOne_twist_ne h]
    · exact raiseOne_twist_ne h c s
  · rw [raiseCause_eq_raiseOne _ _ _ hi]
    exact raiseOne_twist_ne h c s

/-! ## One port falls silent (R169) -/

/-- The stations that a port's silence halts: those bound to it, where LINK_SILENT is halt-enabled. -/
def haltsOf (c : Settings) (s₀ : State) (q : Port) : List Sta :=
  allStations.filter fun i => c.haltEnable.getLsbD 2 && decide (Steers q i s₀)

theorem mem_haltsOf {c : Settings} {s₀ : State} {q : Port} {i : Sta} :
    i ∈ haltsOf c s₀ q ↔ c.haltEnable.getLsbD 2 = true ∧ Steers q i s₀ := by
  have hall : i ∈ allStations := by clear * -; revert i; decide
  unfold haltsOf
  rw [List.mem_filter, and_iff_right hall, Bool.and_eq_true, decide_eq_true_eq]

/-- A port falls silent, with the halt set and the bindings of the request. -/
def silencedBy (c : Settings) (s₀ v : State) (q : Port) : State :=
  (haltsOf c s₀ q).foldl (fun v i => raiseCause i .linkSilent v)
    (raise .link (.port q) 0x604 (v.setPort q { v.port q with live := false }))

theorem silencedBy_move (c : Settings) (s₀ v : State) (q : Port) :
    MoveFrame (v.setPort q { v.port q with live := false }) (silencedBy c s₀ v q) :=
  (MoveFrame.ofNotice (raise_frame ..)).trans
    (foldl_frame (F := MoveFrame) .refl .trans _ (fun _ _ => raiseCause_move ..) _ _)

/-- The causes of a silence, read from the bindings and the halt set of the request. -/
theorem linkSilents_eq {c : Settings} {s₀ w : State} {q : Port} (hset : w.settings = c)
    (hb : ∀ i, (w.station i).bound = (s₀.station i).bound) :
    (if w.settings.haltEnable.has 2 then
      allStations.foldl (fun v i => if (v.station i).bound = some q then raiseCause i .linkSilent v else v) w
    else w) = (haltsOf c s₀ q).foldl (fun v i => raiseCause i .linkSilent v) w := by
  have keep (u : State) (x y : Sta) (_ : y ≠ x) :
      decide (((raiseCause x .linkSilent u).station y).bound = some q) = decide ((u.station y).bound = some q) := by
    obtain ⟨-, -, hown, -⟩ := raiseCause_move x .linkSilent u
    rw [(hown y).1]
  have hp (i : Sta) : (c.haltEnable.getLsbD 2 && decide (Steers q i s₀)) =
      (w.settings.haltEnable.has 2 && decide ((w.station i).bound = some q)) := by
    rw [hset, hb]
    rfl
  have e := gated_foldl (f := fun v i => raiseCause i .linkSilent v) (cond := fun v i => decide ((v.station i).bound = some q))
    (s := w) allStations (by decide) keep hp
  simp only [decide_eq_true_eq] at e
  exact e

theorem fallSilent_eq {c : Settings} {s₀ v : State} {q : Port} (hset : v.settings = c)
    (hb : ∀ i, (v.station i).bound = (s₀.station i).bound) : fallSilent q v = silencedBy c s₀ v q := by
  have hs1 := raise_frame .link (.port q) 0x604 (v.setPort q { v.port q with live := false })
  exact linkSilents_eq (hs1.settings.trans hset) fun i => (congrArg Station.bound (hs1.station i)).trans (hb i)

theorem silencedBy_pressed (c : Settings) (s₀ v : State) (q : Port) : Pressed v (silencedBy c s₀ v q) := by
  have h : Pressed v (raise .link (.port q) 0x604 (v.setPort q { v.port q with live := false })) :=
    .of_stations (raise_frame ..).station
  exact h.trans (foldl_frame (F := Pressed) .refl .trans _ (fun _ _ => raiseCause_pressed _ _ (by decide)) _ _)

theorem silencedBy_port (c : Settings) (s₀ v : State) (q r : Port) :
    ∃ o, (silencedBy c s₀ v q).port r = { (if r = q then { v.port q with live := false } else v.port r) with noticeOvf := o } := by
  rw [← State.setPort_port]
  exact (silencedBy_move c s₀ v q).2.1 r

theorem silencedBy_live (c : Settings) (s₀ v : State) (q r : Port) :
    ((silencedBy c s₀ v q).port r).live = true ↔ (v.port r).live = true ∧ r ≠ q := by
  obtain ⟨o, e⟩ := silencedBy_port c s₀ v q r
  rw [e]
  by_cases h : r = q <;> simp [h]

theorem linkSilent_admissible (i : Sta) : Cause.linkSilent.admissible (kindOf i) = true := by revert i; decide

/-- Every cause of a list of stations is raised. -/
theorem foldl_raiseCause_has {c : Cause} {i : Sta} (ha : c.admissible (kindOf i) = true) (hc : c ≠ .bobbinFull)
    (is : List Sta) (hi : i ∈ is) : ∀ v : State,
    hasCause ((is.foldl (fun v i => raiseCause i c v) v).station i).causes c = true := by
  have keep (is : List Sta) (v : State) : Pressed v (is.foldl (fun v i => raiseCause i c v) v) :=
    foldl_frame (F := Pressed) .refl .trans _ (fun _ _ => raiseCause_pressed _ _ hc) is v
  induction is with
  | nil => cases hi
  | cons j is ih =>
    intro v
    rw [List.foldl_cons]
    rcases List.mem_cons.mp hi with h | h
    · subst h
      exact (keep is _).causes _ _ (raiseCause_has_self ha)
    · exact ih h _

theorem silencedBy_has {c : Settings} {s₀ v : State} {q : Port} {i : Sta} (hc : c.haltEnable.getLsbD 2 = true)
    (hi : Steers q i s₀) : hasCause ((silencedBy c s₀ v q).station i).causes .linkSilent = true :=
  foldl_raiseCause_has (linkSilent_admissible i) (by decide) _ (mem_haltsOf.mpr ⟨hc, hi⟩) _

/-- Causes raised on other stations, and not on K0 beside C0, leave a station and its twisting fields. -/
theorem foldl_raiseCause_kept {c : Cause} {i : Sta} (is : List Sta) (hi : i ∉ is) (hK : i = staC0 → staK0 ∉ is) :
    ∀ v : State, (is.foldl (fun v i => raiseCause i c v) v).station i = v.station i ∧
      ∀ t, twiSta t = i → (is.foldl (fun v i => raiseCause i c v) v).twist t = v.twist t := by
  induction is with
  | nil => exact fun v => ⟨rfl, fun _ _ => rfl⟩
  | cons j is ih =>
    intro v
    rw [List.mem_cons, not_or] at hi
    have hj : i ≠ staC0 ∨ j ≠ staK0 := by
      by_cases h : i = staC0
      · exact .inr fun e => hK h (e ▸ List.mem_cons_self)
      · exact .inl h
    obtain ⟨hsta, htw⟩ := ih hi.2 (fun h h' => hK h (List.mem_cons_of_mem j h')) (raiseCause j c v)
    rw [List.foldl_cons]
    refine ⟨hsta.trans (raiseCause_station_ne _ _ _ _ hi.1 hj), fun t ht => (htw t ht).trans ?_⟩
    subst ht
    exact raiseCause_twist_ne hi.1 hj c v

/-- A station that a silence does not halt, nor C0's K0, is left as it stands. -/
theorem silencedBy_kept {c : Settings} {s₀ : State} {q : Port} {i : Sta}
    (h : c.haltEnable.getLsbD 2 = false ∨ ¬Steers q i s₀ ∧ (i = staC0 → ¬Steers q staK0 s₀)) (v : State) :
    (silencedBy c s₀ v q).station i = v.station i ∧ ∀ t, twiSta t = i → (silencedBy c s₀ v q).twist t = v.twist t := by
  have hs1 := raise_frame .link (.port q) 0x604 (v.setPort q { v.port q with live := false })
  have hi : i ∉ haltsOf c s₀ q := fun hm => by
    obtain ⟨hc, hs⟩ := mem_haltsOf.mp hm
    exact h.elim (fun h => by rw [h] at hc; cases hc) fun h => h.1 hs
  have hK (hC : i = staC0) : staK0 ∉ haltsOf c s₀ q := fun hm => by
    obtain ⟨hc, hs⟩ := mem_haltsOf.mp hm
    exact h.elim (fun h => by rw [h] at hc; cases hc) fun h => h.2 hC hs
  obtain ⟨hsta, htw⟩ := foldl_raiseCause_kept (c := .linkSilent) _ hi hK
    (raise .link (.port q) 0x604 (v.setPort q { v.port q with live := false }))
  exact ⟨hsta.trans (hs1.station i), fun t ht => (htw t ht).trans (hs1.twist t)⟩

/-! ## Several ports fall silent -/

/-- The ports of a list fall silent, in turn. -/
def silencesMade (c : Settings) (s₀ : State) (qs : List Port) (v : State) : State := qs.foldl (silencedBy c s₀) v

theorem silencesMade_live (c : Settings) (s₀ : State) (qs : List Port) (r : Port) : ∀ v : State,
    ((silencesMade c s₀ qs v).port r).live = true ↔ (v.port r).live = true ∧ r ∉ qs := by
  induction qs with
  | nil => exact fun v => by simp [silencesMade]
  | cons q qs ih =>
    intro v
    refine (ih (silencedBy c s₀ v q)).trans ?_
    rw [silencedBy_live, List.mem_cons, not_or, and_assoc]

theorem silencesMade_pressed (c : Settings) (s₀ : State) (qs : List Port) (v : State) : Pressed v (silencesMade c s₀ qs v) :=
  foldl_frame (F := Pressed) .refl .trans _ (silencedBy_pressed c s₀) qs v

theorem silencesMade_has {c : Settings} {s₀ : State} {q : Port} {i : Sta} (hc : c.haltEnable.getLsbD 2 = true)
    (hi : Steers q i s₀) (qs : List Port) (hq : q ∈ qs) : ∀ v : State,
    hasCause ((silencesMade c s₀ qs v).station i).causes .linkSilent = true := by
  induction qs with
  | nil => cases hq
  | cons r qs ih =>
    intro v
    rcases List.mem_cons.mp hq with h | h
    · subst h
      exact (silencesMade_pressed c s₀ qs _).causes _ _ (silencedBy_has hc hi)
    · exact ih h (silencedBy c s₀ v r)

theorem silencesMade_kept {c : Settings} {s₀ : State} {i : Sta} (qs : List Port)
    (h : c.haltEnable.getLsbD 2 = false ∨ ∀ q ∈ qs, ¬Steers q i s₀ ∧ (i = staC0 → ¬Steers q staK0 s₀)) : ∀ v : State,
    (silencesMade c s₀ qs v).station i = v.station i ∧ ∀ t, twiSta t = i → (silencesMade c s₀ qs v).twist t = v.twist t := by
  induction qs with
  | nil => exact fun v => ⟨rfl, fun _ _ => rfl⟩
  | cons q qs ih =>
    intro v
    obtain ⟨hsta, htw⟩ := ih (h.imp_right fun h r hr => h r (List.mem_cons_of_mem q hr)) (silencedBy c s₀ v q)
    obtain ⟨hsta', htw'⟩ := silencedBy_kept (h.imp_right fun h => h q List.mem_cons_self) v
    exact ⟨hsta.trans hsta', fun t ht => (htw t ht).trans (htw' t ht)⟩

end Sys2Proof.Laws
end

section
/-! The effects of written settings (R187): what the model makes of them at once. -/

namespace Sys2Proof.Laws

open Sys2Proof.Machine Sys2Proof.Safety

/-! ## What is past its limit (R52, R73, R74, R171) -/

/-- The marks of one station leave what is past its limit on another. -/
theorem overdue_congr {u v : State} {t : Twi} (hf : MarkFrame u v) (ht : v.twist t = u.twist t) :
    windowOverdue t v = windowOverdue t u ∧ runUpOverdue t v = runUpOverdue t u ∧ runDownOverdue t v = runDownOverdue t u := by
  unfold windowOverdue runUpOverdue runDownOverdue State.canExpire State.runUpOpen State.runDownOpen
  rw [ht, hf.station, hf.settings, hf.nowMs]
  exact ⟨rfl, rfl, rfl⟩

theorem marked_overdue {g : Twist → Twist} {w : Warning} {cls : NoticeClass} {d : BitVec 16} {u : State} {x y : Twi}
    (h : y ≠ x) : windowOverdue y (marked g w cls d u x) = windowOverdue y u ∧
      runUpOverdue y (marked g w cls d u x) = runUpOverdue y u ∧
      runDownOverdue y (marked g w cls d u x) = runDownOverdue y u :=
  overdue_congr (marked_frame ..) ((marked_twist ..).trans (if_neg h))

theorem stalledAt_eq {wrote : Nat → Bool} {c : Settings} {s v : State} {t : Twi} (hset : v.settings = c)
    (hsta : ∀ i, v.station i = s.station i) (hnow : v.nowMs = s.nowMs) (hlay : (v.twist t).lay = (s.twist t).lay) :
    stalledAt wrote c s t = (wrote 2 && windowOverdue t v) := by
  unfold stalledAt windowOverdue State.canExpire
  rw [hset, hsta, hnow, hlay, Bool.eq_iff_iff]
  simp only [Bool.and_eq_true, decide_eq_true_eq, beq_iff_eq, and_assoc]

theorem upLongAt_eq {wrote : Nat → Bool} {c : Settings} {s v : State} {t : Twi} (hset : v.settings = c)
    (hsta : ∀ i, v.station i = s.station i) (hnow : v.nowMs = s.nowMs) (hlong : (v.twist t).runUpLong = (s.twist t).runUpLong)
    (hrun : (v.twist t).runUp = (s.twist t).runUp) : upLongAt wrote c s t = (wrote 4 && runUpOverdue t v) := by
  unfold upLongAt runUpOverdue State.runUpOpen
  rw [hset, hsta, hnow, hlong, hrun, Bool.eq_iff_iff]
  simp only [Bool.and_eq_true, decide_eq_true_eq, beq_iff_eq]
  exact ⟨fun ⟨⟨hw, hl⟩, hs, hle⟩ => ⟨hw, ⟨hs, hl⟩, hle⟩, fun ⟨hw, ⟨hs, hl⟩, hle⟩ => ⟨⟨hw, hl⟩, hs, hle⟩⟩

theorem downLongAt_eq {wrote : Nat → Bool} {c : Settings} {s v : State} {t : Twi} (hset : v.settings = c)
    (hsta : ∀ i, v.station i = s.station i) (hnow : v.nowMs = s.nowMs)
    (hlong : (v.twist t).runDownLong = (s.twist t).runDownLong) (hrun : (v.twist t).runDown = (s.twist t).runDown) :
    downLongAt wrote c s t = (wrote 5 && runDownOverdue t v) := by
  unfold downLongAt runDownOverdue State.runDownOpen
  rw [hset, hsta, hnow, hlong, hrun, Bool.eq_iff_iff]
  simp only [Bool.and_eq_true, decide_eq_true_eq, beq_iff_eq]
  exact ⟨fun ⟨⟨hw, hl⟩, hs, hle⟩ => ⟨hw, ⟨hs, hl⟩, hle⟩, fun ⟨hw, ⟨hs, hl⟩, hle⟩ => ⟨⟨hw, hl⟩, hs, hle⟩⟩

/-! ## The three folds of marks, and the fold of silences -/

/-- The state in which a request's marks are made: the settings written, all else of `s` but ports and queues. -/
structure WrittenOn (c : Settings) (s v : State) : Prop where
  settings : v.settings = c
  station : ∀ i, v.station i = s.station i
  nowMs : v.nowMs = s.nowMs

theorem WrittenOn.marks {c : Settings} {s v w : State} (h : WrittenOn c s v) (hf : MarkFrame v w) : WrittenOn c s w :=
  ⟨hf.settings.trans h.settings, fun i => (hf.station i).trans (h.station i), hf.nowMs.trans h.nowMs⟩

theorem nodup_filter_allTwists (p : Twi → Bool) : (allTwists.filter p).Nodup := List.Nodup.filter _ (by decide)

theorem windowsTaken_eq {wrote : Nat → Bool} {c : Settings} {s v : State} (h : WrittenOn c s v)
    (htw : ∀ t, (v.twist t).lay = (s.twist t).lay) :
    (if wrote 2 then allTwists.foldl (fun s t => if windowOverdue t s then expireWindow t s else s) v else v) =
      (allTwists.filter (stalledAt wrote c s)).foldl (markedAt c (windowStalled s.nowMs) 3 .layWarn 0x502) v := by
  rw [← h.nowMs, ← foldl_expireWindow h.settings]
  refine gated_foldl (f := fun u t => expireWindow t u) (cond := fun u t => windowOverdue t u) (s := v) allTwists (by decide)
    (fun u x y hy => ?_) (fun t => stalledAt_eq h.settings h.station h.nowMs (htw t))
  rw [expireWindow_eq, (marked_overdue hy).1]

theorem runUpsTaken_eq {wrote : Nat → Bool} {c : Settings} {s v : State} (h : WrittenOn c s v)
    (htw : ∀ t, (v.twist t).runUpLong = (s.twist t).runUpLong ∧ (v.twist t).runUp = (s.twist t).runUp) :
    (if wrote 4 then allTwists.foldl (fun s t => if runUpOverdue t s then longRunUp t s else s) v else v) =
      (allTwists.filter (upLongAt wrote c s)).foldl
        (markedAt c (fun w => { w with runUpLong := true }) 0 .phaseWarn 0x500) v := by
  refine Eq.trans ?_ (foldl_marked h.settings _ .runUpLong .phaseWarn 0x500 _)
  refine gated_foldl (f := fun u t => longRunUp t u) (cond := fun u t => runUpOverdue t u) (s := v) allTwists (by decide)
    (fun u x y hy => ?_) (fun t => upLongAt_eq h.settings h.station h.nowMs (htw t).1 (htw t).2)
  rw [longRunUp_eq, (marked_overdue hy).2.1]

theorem runDownsTaken_eq {wrote : Nat → Bool} {c : Settings} {s v : State} (h : WrittenOn c s v)
    (htw : ∀ t, (v.twist t).runDownLong = (s.twist t).runDownLong ∧ (v.twist t).runDown = (s.twist t).runDown) :
    (if wrote 5 then allTwists.foldl (fun s t => if runDownOverdue t s then longRunDown t s else s) v else v) =
      (allTwists.filter (downLongAt wrote c s)).foldl
        (markedAt c (fun w => { w with runDownLong := true }) 1 .phaseWarn 0x501) v := by
  refine Eq.trans ?_ (foldl_marked h.settings _ .runDownLong .phaseWarn 0x501 _)
  refine gated_foldl (f := fun u t => longRunDown t u) (cond := fun u t => runDownOverdue t u) (s := v) allTwists (by decide)
    (fun u x y hy => ?_) (fun t => downLongAt_eq h.settings h.station h.nowMs (htw t).1 (htw t).2)
  rw [longRunDown_eq, (marked_overdue hy).2.2]

theorem silenceOverdue_congr {u v : State} {q : Port} (hset : v.settings = u.settings) (hnow : v.nowMs = u.nowMs)
    (hp : ∃ o, v.port q = { u.port q with noticeOvf := o }) : silenceOverdue q v = silenceOverdue q u := by
  obtain ⟨o, e⟩ := hp
  unfold silenceOverdue silenceLeftMs
  rw [e, hset, hnow]

/-- The silence of one port leaves the settings, the time and the other ports' silence. -/
theorem fallSilent_overdue {u : State} {x y : Port} (h : y ≠ x) :
    silenceOverdue y (fallSilent x u) = silenceOverdue y u := by
  rw [fallSilent_eq (c := u.settings) (s₀ := u) rfl fun _ => rfl]
  have hf := silencedBy_move u.settings u u x
  obtain ⟨o, e⟩ := silencedBy_port u.settings u u x y
  exact silenceOverdue_congr hf.settings (congrArg (· / 1000) hf.now) ⟨o, by rw [e, if_neg h]⟩

theorem silencesTaken_eq {wrote : Nat → Bool} {c : Settings} {s v : State} (h : WrittenOn c s v) :
    allPorts.foldl (fun s p => if wrote (13 + p.val) && silenceOverdue p s then fallSilent p s else s) v =
      silencesMade c s (allPorts.filter fun q => wrote (13 + q.val) && silenceOverdue q v) v := by
  rw [foldl_if_eq_filter (f := fun u q => fallSilent q u) (cond := fun u q => wrote (13 + q.val) && silenceOverdue q u)
    allPorts (by decide) (fun u x y hy => by rw [fallSilent_overdue hy])]
  refine foldl_congr_of_inv (I := fun u => u.settings = c ∧ ∀ i, (u.station i).bound = (s.station i).bound)
    (fun u q hu => ?_) _ v ⟨h.settings, fun i => congrArg Station.bound (h.station i)⟩
  obtain ⟨hset, hb⟩ := hu
  have hf := silencedBy_move c s u q
  refine ⟨fallSilent_eq hset hb, ?_⟩
  rw [fallSilent_eq hset hb]
  obtain ⟨-, -, hown, -⟩ := id hf
  exact ⟨hf.settings.trans hset, fun i => (hown i).1.trans (hb i)⟩

/-- The immediate effects of what a request wrote. -/
theorem settingsTaken_eq {wrote : Nat → Bool} {c : Settings} {s b : State} (h : WrittenOn c s b)
    (htw : ∀ t, b.twist t = s.twist t) :
    settingsTaken wrote b = silencesMade c s (allPorts.filter fun q => wrote (13 + q.val) && silenceOverdue q b)
      (marksMade c (stalledAt wrote c s) (upLongAt wrote c s) (downLongAt wrote c s) s.nowMs b) := by
  unfold settingsTaken
  dsimp only
  rw [windowsTaken_eq h fun t => by rw [htw]]
  have hw := foldl_markedAt_frame c (windowStalled s.nowMs) 3 .layWarn 0x502 (allTwists.filter (stalledAt wrote c s)) b
  have hwt := foldl_markedAt_twist c (windowStalled s.nowMs) 3 .layWarn 0x502 _
    (nodup_filter_allTwists (stalledAt wrote c s)) b
  have hu := foldl_markedAt_frame c (fun w => { w with runUpLong := true }) 0 .phaseWarn 0x500
    (allTwists.filter (upLongAt wrote c s))
  have hut := foldl_markedAt_twist c (fun w => { w with runUpLong := true }) 0 .phaseWarn 0x500 _
    (nodup_filter_allTwists (upLongAt wrote c s))
  rw [runUpsTaken_eq (h.marks hw) fun t => by rw [hwt, htw]; split <;> exact ⟨rfl, rfl⟩]
  rw [runDownsTaken_eq ((h.marks hw).marks (hu _)) fun t => by
    rw [hut, hwt, htw]
    split <;> split <;> exact ⟨rfl, rfl⟩]
  have hm := marksMade_frame c (stalledAt wrote c s) (upLongAt wrote c s) (downLongAt wrote c s) s.nowMs b
  refine (silencesTaken_eq (h.marks hm)).trans ?_
  refine congrArg (fun p => silencesMade c s (allPorts.filter p) _) (funext fun q => ?_)
  rw [silenceOverdue_congr hm.settings hm.nowMs (hm.port q)]

end Sys2Proof.Laws
end

section
/-! SETTINGS_WRITE and CAL_WRITE (O50). -/

namespace Sys2Proof.Laws

open Sys2Proof.Machine Sys2Proof.Safety

/-! ## What the effects of written settings leave unchanged -/

/-- `t` is `s` but for the stations' records, the twisting stations' own fields, the ports and the queues. -/
def EffectFrame (s t : State) : Prop :=
  t = { s with stations := t.stations, twists := t.twists, ports := t.ports, queues := t.queues }

namespace EffectFrame

theorem refl (s : State) : EffectFrame s s := rfl

theorem trans {s t u : State} (h : EffectFrame s t) (k : EffectFrame t u) : EffectFrame s u := by
  unfold EffectFrame at *
  rw [h] at k
  exact k

theorem of_marks {s t : State} (h : MarkFrame s t) : EffectFrame s t := by
  obtain ⟨e, -⟩ := h
  unfold EffectFrame
  rw [e]

end EffectFrame

theorem silencesMade_frame (c : Settings) (s₀ : State) (qs : List Port) (v : State) : EffectFrame v (silencesMade c s₀ qs v) := by
  refine foldl_frame (F := EffectFrame) .refl .trans _ (fun u q => ?_) qs v
  obtain ⟨e, -⟩ := silencedBy_move c s₀ u q
  exact e

/-- A port that does not fall silent is touched by notices alone. -/
theorem silencesMade_port {c : Settings} {s₀ : State} {r : Port} (qs : List Port) (h : r ∉ qs) : ∀ v : State,
    ∃ o, (silencesMade c s₀ qs v).port r = { v.port r with noticeOvf := o } := by
  induction qs with
  | nil => exact fun v => ⟨(v.port r).noticeOvf, rfl⟩
  | cons q qs ih =>
    intro v
    rw [List.mem_cons, not_or] at h
    obtain ⟨o, e⟩ := ih h.2 (silencedBy c s₀ v q)
    obtain ⟨o', e'⟩ := silencedBy_port c s₀ v q r
    rw [if_neg h.1] at e'
    exact ⟨o, e.trans (by rw [e'])⟩

/-! ## A port's silence (R169, R171) -/

theorem silenceOverdue_eq (q : Port) (s : State) : silenceOverdue q s =
    ((s.port q).live && (s.settings.silence[q]).ms.any fun ms => decide (ms ≤ elapsedMs (s.port q).lastValidMs s.nowMs)) := by
  rw [Bool.eq_iff_iff, silenceOverdue_iff, Bool.and_eq_true, Option.any_eq_true]
  simp only [decide_eq_true_eq]

/-- The port on which a frame has just arrived is not past its period. -/
theorem not_silenceOverdue_of_arrival {p : Port} {s : State} (h : (s.port p).lastValidMs = s.nowMs) :
    silenceOverdue p s = false := by
  rw [silenceOverdue_eq, h, elapsedMs_self]
  cases s.settings.silence[p] <;> simp [Silence.ms]

theorem validArrival_lastValid (p : Port) (s : State) : ((validArrival p s).port p).lastValidMs = s.nowMs := by
  obtain ⟨o, e⟩ := (validArrival_frame p s).2 p
  rw [e, State.setPort_port_self]

/-! ## SETTINGS_WRITE (R187) -/

theorem serveSettingsWrite_unwritten {pairs : List (Byte × BitVec 32)} {s : State}
    (h : writePairs Settings.write pairs s.settings false = none) :
    serveSettingsWrite pairs s = (s, .outOfRange, []) := by
  unfold serveSettingsWrite
  rw [h]
  rfl

theorem serveSettingsWrite_held {pairs : List (Byte × BitVec 32)} {s : State} {c : Settings} {clamped : Bool}
    (h : writePairs Settings.write pairs s.settings false = some (c, clamped)) (hn : pairs.any (needleHeld s) = true) :
    serveSettingsWrite pairs s = (s, .wrongState, []) := by
  unfold serveSettingsWrite
  rw [h]
  exact if_pos hn

theorem serveSettingsWrite_written {pairs : List (Byte × BitVec 32)} {s : State} {c : Settings} {clamped : Bool}
    (h : writePairs Settings.write pairs s.settings false = some (c, clamped)) (hn : pairs.any (needleHeld s) = false) :
    serveSettingsWrite pairs s = (settingsTaken (fun n => pairs.any fun x => x.1.toNat == n) (s.setSettings c),
      if clamped then .clamped else .ok, []) := by
  unfold serveSettingsWrite
  rw [h]
  exact if_neg (by rw [hn]; simp)

/-- The needle counts are settings 9 and 10. -/
theorem needleHeld_iff {s : State} {x : Byte × BitVec 32} : needleHeld s x = true ↔
    (x.1 = 9 ∧ (s.station (loomSta 0)).lot ≠ none) ∨ (x.1 = 10 ∧ (s.station (loomSta 1)).lot ≠ none) := by
  have code (n : Byte) : (x.1.toNat == n.toNat) = true ↔ x.1 = n := by rw [beq_iff_eq, BitVec.toNat_inj]
  have lot (i : Sta) : (s.station i).lot.isSome = true ↔ (s.station i).lot ≠ none := Option.isSome_iff_ne_none
  unfold needleHeld
  rw [Bool.or_eq_true, Bool.and_eq_true, Bool.and_eq_true, lot, lot]
  exact or_congr (and_congr_left fun _ => code 9) (and_congr_left fun _ => code 10)

/-! ## CAL_WRITE (R188) -/

theorem serveCalWrite_unwritten {pairs : List (Byte × BitVec 32)} {s : State}
    (h : writePairs Settings.writeCal pairs s.settings false = none) :
    serveCalWrite pairs s = (s, .outOfRange, []) := by
  unfold serveCalWrite
  rw [h]
  rfl

theorem serveCalWrite_moving {pairs : List (Byte × BitVec 32)} {s : State} {c : Settings} {clamped : Bool}
    (h : writePairs Settings.writeCal pairs s.settings false = some (c, clamped)) (hm : pairs.any (calMoving s) = true) :
    serveCalWrite pairs s = (s, .wrongState, []) := by
  unfold serveCalWrite
  rw [h]
  exact if_pos hm

theorem serveCalWrite_written {pairs : List (Byte × BitVec 32)} {s : State} {c : Settings} {clamped : Bool}
    (h : writePairs Settings.writeCal pairs s.settings false = some (c, clamped)) (hm : pairs.any (calMoving s) = false) :
    serveCalWrite pairs s = (discardPending s.settings (s.setSettings c), if clamped then .clamped else .ok, []) := by
  unfold serveCalWrite
  rw [h]
  exact if_neg (by rw [hm]; simp)

/-- A channel after the settings of channels have changed from `old` to `c`. -/
def rewired (old c : Settings) (k : Chan) (r : Channel) : Channel :=
  if old.edge[k] ≠ c.edge[k] ∨ old.filter[k] ≠ c.filter[k] then { r with pending := none } else r

theorem rewire_step (old : Settings) (s : State) (k : Chan) :
    (if old.edge[k] ≠ s.settings.edge[k] ∨ old.filter[k] ≠ s.settings.filter[k] then
      s.setChannel k { s.channel k with pending := none } else s) =
    s.setChannel k (rewired old s.settings k (s.channel k)) := by
  unfold rewired
  split
  · rfl
  · exact (State.setChannel_channel_id ..).symm

theorem foldl_rewired (old : Settings) (ks : List Chan) (hnd : ks.Nodup) : ∀ s : State,
    ks.foldl (fun s k => s.setChannel k (rewired old s.settings k (s.channel k))) s =
      { s with channels := .ofFn fun k => if k ∈ ks then rewired old s.settings k (s.channel k) else s.channel k } := by
  induction ks with
  | nil =>
    intro s
    simp only [List.not_mem_nil, if_false]
    have e : s.channels = .ofFn s.channel := Vector.ext fun i hi => (Vector.getElem_ofFn (f := s.channel) hi).symm
    exact congrArg (fun ch => { s with channels := ch }) e
  | cons k₀ ks ih =>
    intro s
    obtain ⟨hk₀, hnd⟩ := List.nodup_cons.mp hnd
    rw [List.foldl_cons, ih hnd]
    refine congrArg (fun f => { s with channels := Vector.ofFn f }) (funext fun k => ?_)
    rw [State.setChannel_channel, State.setChannel_settings]
    by_cases hk : k = k₀
    · subst hk
      rw [if_neg hk₀, if_pos rfl, if_pos List.mem_cons_self]
    · simp only [List.mem_cons, hk, if_false, false_or]

theorem discardPending_eq (old : Settings) (s : State) : discardPending old s =
    { s with channels := .ofFn fun k => rewired old s.settings k (s.channel k) } := by
  have hall (k : Chan) : k ∈ allChannels := List.mem_finRange k
  unfold discardPending
  simp only [rewire_step]
  rw [foldl_rewired old allChannels (List.nodup_finRange 11)]
  simp only [hall, if_true]

end Sys2Proof.Laws
end

section
/-! SETTINGS_WRITE and CAL_WRITE settled (O50). -/

namespace Sys2Proof.Laws

open Sys2Proof.Machine Sys2Proof.Safety

theorem write_loom (c : Settings) (v : Nat) (l : Loom) : Settings.write c (9 + l.val) v =
    some ({ c with needles := c.needles.set l (max 16 (min 256 v)) }, decide (max 16 (min 256 v) ≠ v)) := by
  match l with
  | 0 => exact num_eq (by decide) v fun x => { c with needles := c.needles.set 0 x }
  | 1 => exact num_eq (by decide) v fun x => { c with needles := c.needles.set 1 x }

theorem write_silence (c : Settings) (v : Nat) (q : Port) : Settings.write c (13 + q.val) v =
    (([.off, .ms200, .ms500, .ms1000, .ms2000].map fun x => { c with silence := c.silence.set q x })[v]?).map
      fun x => (x, false) := by
  match q with
  | 0 | 1 | 2 | 3 => exact map_ofCode silence_ofCode _ v

theorem write_none (c : Settings) (v : Nat) {no : Nat} (h : no = 0 ∨ 16 < no) : Settings.write c no v = none := by
  rcases h with h | h
  · rw [h]; rfl
  · obtain ⟨m, rfl⟩ : ∃ m, no = m + 17 := ⟨no - 17, by omega⟩
    rfl

theorem writeCal_edge (c : Settings) (v : Nat) (k : Chan) : Settings.writeCal c k.val v =
    (([.off, .rise, .fall, .both].map fun x => { c with edge := c.edge.set k x })[v]?).map fun x => (x, false) := by
  unfold Settings.writeCal
  rw [calItem_edge]
  exact map_ofCode edgeMode_ofCode _ v

theorem writeCal_filter (c : Settings) (v : Nat) (k : Chan) : Settings.writeCal c (16 + k.val) v =
    (([.off, .us20, .us100, .us500].map fun x => { c with filter := c.filter.set k x })[v]?).map fun x => (x, false) := by
  unfold Settings.writeCal
  rw [calItem_filter]
  exact map_ofCode filter_ofCode _ v

theorem writeCal_capstan (c : Settings) (v : Nat) (t : Twi) : Settings.writeCal c (32 + t.val) v =
    some ({ c with capstan := c.capstan.set t (max 1 (min 65535 v)) }, decide (max 1 (min 65535 v) ≠ v)) := by
  unfold Settings.writeCal
  rw [calItem_capstan]
  exact num_eq (by decide) v fun x => { c with capstan := c.capstan.set t x }

theorem writeCal_flyer (c : Settings) (v : Nat) (t : Twi) : Settings.writeCal c (40 + t.val) v =
    some ({ c with flyer := c.flyer.set t (max 1 (min 255 v)) }, decide (max 1 (min 255 v) ≠ v)) := by
  unfold Settings.writeCal
  rw [calItem_flyer]
  exact num_eq (by decide) v fun x => { c with flyer := c.flyer.set t x }

theorem writeCal_wheel (c : Settings) (v : Nat) : Settings.writeCal c 48 v =
    some ({ c with wheel := max 1 (min 65535 v) }, decide (max 1 (min 65535 v) ≠ v)) :=
  num_eq (by decide) v fun x => { c with wheel := x }

theorem writeCal_none (c : Settings) (v : Nat) {no : Nat}
    (h : 10 < no ∧ no < 16 ∨ 26 < no ∧ no < 32 ∨ 36 < no ∧ no < 40 ∨ 44 < no ∧ no < 48 ∨ 48 < no) :
    Settings.writeCal c no v = none := by
  unfold Settings.writeCal
  rw [calItem_none h]

theorem writePairs_cons (f : Settings → Nat → Nat → Option (Settings × Bool)) (c : Settings) (clamped : Bool)
    (pair : Byte × BitVec 32) (rest : List (Byte × BitVec 32)) :
    writePairs f (pair :: rest) c clamped =
      match f c pair.1.toNat pair.2.toNat with
      | some (c', now) => writePairs f rest c' (clamped || now)
      | none => none := by
  rw [writePairs]
  cases f c pair.1.toNat pair.2.toNat <;> rfl

/-! ## The answers -/

theorem lengthOk_pairs {pairs : List (Byte × BitVec 32)} (h1 : 1 ≤ pairs.length) (h2 : pairs.length ≤ 12) :
    (Request.settingsWrite pairs).lengthOk = true ∧ (Request.calWrite pairs).lengthOk = true := by
  have h : (decide (1 ≤ pairs.length) && decide (pairs.length ≤ 12)) = true := by simp [h1, h2]
  exact ⟨h, h⟩

section

variable {p : Port} {s : State} {pairs : List (Byte × BitVec 32)} (hL : Listens p s) (h1 : 1 ≤ pairs.length)
  (h2 : pairs.length ≤ 12)
include hL h1 h2

theorem settingsWrite_only {code : Code} (h : ∀ ps qs,
    serveSettingsWrite pairs { s with ports := ps, queues := qs } = ({ s with ports := ps, queues := qs }, code, [])) :
    OnlyAnswers p 0x70 code [] (.settingsWrite p pairs) s :=
  onlyAnswers_of_free (r := .settingsWrite pairs) hL rfl (lengthOk_pairs h1 h2).1 rfl h

theorem calWrite_only {code : Code} (h : ∀ ps qs,
    serveCalWrite pairs { s with ports := ps, queues := qs } = ({ s with ports := ps, queues := qs }, code, [])) :
    OnlyAnswers p 0x72 code [] (.calWrite p pairs) s :=
  onlyAnswers_of_free (r := .calWrite pairs) hL rfl (lengthOk_pairs h1 h2).2 rfl h

theorem settingsWrite_written {c : Settings} {clamped : Bool}
    (h : writePairs Settings.write pairs s.settings false = some (c, clamped)) (hn : pairs.any (needleHeld s) = false)
    (hu : ∃ o, (settingsTaken (fun n => pairs.any fun x => x.1.toNat == n) ((validArrival p s).setSettings c)).port p =
      { (validArrival p s).port p with noticeOvf := o })
    (hnow : (settingsTaken (fun n => pairs.any fun x => x.1.toNat == n) ((validArrival p s).setSettings c)).now =
      (validArrival p s).now) :
    Answers p 0x70 (if clamped then .clamped else .ok) [] (.settingsWrite p pairs) s
      (settingsTaken (fun n => pairs.any fun x => x.1.toNat == n) ((validArrival p s).setSettings c)) := by
  have ha := validArrival_arrived p s
  have hn' : pairs.any (needleHeld (validArrival p s)) = false := by rw [ha]; exact hn
  refine answers_of_port (r := .settingsWrite pairs) hL rfl (lengthOk_pairs h1 h2).1 ?_ hnow hu
  rw [checked_free p (.settingsWrite pairs) _ (lengthOk_pairs h1 h2).1 rfl]
  exact serveSettingsWrite_written (s := validArrival p s) (by rw [ha.settings]; exact h) hn'

theorem calWrite_written {c : Settings} {clamped : Bool}
    (h : writePairs Settings.writeCal pairs s.settings false = some (c, clamped)) (hm : pairs.any (calMoving s) = false) :
    Answers p 0x72 (if clamped then .clamped else .ok) [] (.calWrite p pairs) s
      { validArrival p s with
        settings := c, channels := .ofFn fun k => rewired s.settings c k (s.channel k) } := by
  have ha := validArrival_arrived p s
  have hm' : pairs.any (calMoving (validArrival p s)) = false := by rw [ha]; exact hm
  refine answers_of_free (r := .calWrite pairs) hL rfl (lengthOk_pairs h1 h2).2 rfl ?_ (.of_ports rfl rfl)
  refine (serveCalWrite_written (s := validArrival p s) (by rw [ha.settings]; exact h) hm').trans ?_
  rw [discardPending_eq, ha.settings, ha]
  rfl

end

end Sys2Proof.Laws
end

section
/-! SETTINGS_WRITE and CAL_WRITE (O50): the statement. -/

namespace Sys2Proof.Laws

open Sys2Proof.Machine Sys2Proof.Safety

/-! ## The state that the effects of a request leave -/

/-- The effects of the settings `c` on `b`: the marks, then the silences. -/
def effectsMade (c : Settings) (stalled upLong downLong : Twi → Bool) (fell : Port → Bool) (s b : State) : State :=
  silencesMade c s (allPorts.filter fell) (marksMade c stalled upLong downLong s.nowMs b)

section

variable (c : Settings) (stalled upLong downLong : Twi → Bool) (fell : Port → Bool) (s b : State)

theorem mem_filter_allPorts {fell : Port → Bool} {q : Port} : q ∈ allPorts.filter fell ↔ fell q = true := by
  have hall : q ∈ allPorts := by clear * -; revert q; decide
  rw [List.mem_filter, and_iff_right hall]

theorem effectsMade_frame : EffectFrame b (effectsMade c stalled upLong downLong fell s b) :=
  (EffectFrame.of_marks (marksMade_frame ..)).trans (silencesMade_frame ..)

theorem effectsMade_port {q : Port} (h : fell q = false) :
    ∃ o, (effectsMade c stalled upLong downLong fell s b).port q = { b.port q with noticeOvf := o } := by
  have hq : q ∉ allPorts.filter fell := by rw [mem_filter_allPorts, h]; simp
  obtain ⟨o, e⟩ := (marksMade_frame c stalled upLong downLong s.nowMs b).port q
  obtain ⟨o', e'⟩ := silencesMade_port (c := c) (s₀ := s) _ hq (marksMade c stalled upLong downLong s.nowMs b)
  exact ⟨o', e'.trans (by rw [e])⟩

theorem effectsMade_live (q : Port) : ((effectsMade c stalled upLong downLong fell s b).port q).live = true ↔
    (b.port q).live = true ∧ fell q = false := by
  obtain ⟨o, e⟩ := (marksMade_frame c stalled upLong downLong s.nowMs b).port q
  unfold effectsMade
  rw [silencesMade_live, mem_filter_allPorts, e, Bool.not_eq_true]

theorem effectsMade_has {q : Port} {i : Sta} (hq : fell q = true) (hi : Steers q i s) (hc : c.haltEnable.getLsbD 2 = true) :
    hasCause ((effectsMade c stalled upLong downLong fell s b).station i).causes .linkSilent = true :=
  silencesMade_has hc hi _ (mem_filter_allPorts.mpr hq) _

/-- A station that no silence halts keeps its record, and its own fields but for the marks. -/
theorem effectsMade_kept {i : Sta} (h : c.haltEnable.getLsbD 2 = false ∨
    ∀ q, fell q = true → ¬Steers q i s ∧ (i = staC0 → ¬Steers q staK0 s)) :
    (effectsMade c stalled upLong downLong fell s b).station i = b.station i ∧
      ∀ t, twiSta t = i → (effectsMade c stalled upLong downLong fell s b).twist t =
        { b.twist t with
          lay := if stalled t then { (b.twist t).lay with p := 0, dl := 0, openMs := s.nowMs } else (b.twist t).lay
          runUpLong := (b.twist t).runUpLong || upLong t, runDownLong := (b.twist t).runDownLong || downLong t } := by
  obtain ⟨hsta, htw⟩ := silencesMade_kept (allPorts.filter fell) (h.imp_right fun h q hq => h q (mem_filter_allPorts.mp hq))
    (marksMade c stalled upLong downLong s.nowMs b)
  exact ⟨hsta.trans ((marksMade_frame ..).station i), fun t ht => (htw t ht).trans (marksMade_twist ..)⟩

/-- Where nothing is past its limit there is no further effect. -/
theorem effectsMade_none (ht : ∀ t, stalled t = false ∧ upLong t = false ∧ downLong t = false) (hq : ∀ q, fell q = false) :
    effectsMade c stalled upLong downLong fell s b = b := by
  have none_of {α : Type} {p : α → Bool} (h : ∀ x, p x = false) (xs : List α) : xs.filter p = [] :=
    List.filter_eq_nil_iff.mpr fun x _ => by rw [h]; simp
  unfold effectsMade silencesMade marksMade
  rw [none_of hq, none_of fun t => (ht t).1, none_of fun t => (ht t).2.1, none_of fun t => (ht t).2.2]
  rfl

end

/-! ## Which ports fall silent -/

/-- The ports past their written silence periods. -/
def fellAt (wrote : Nat → Bool) (c : Settings) (a : State) (q : Port) : Bool :=
  wrote (13 + q.val) && silenceOverdue q (a.setSettings c)

theorem fellAt_eq {s a : State} (ha : Arrived s a) (wrote : Nat → Bool) (c : Settings) (q : Port) : fellAt wrote c a q =
    (wrote (13 + q.val) && (a.port q).live &&
      (c.silence[q]).ms.any fun ms => decide (ms ≤ (s.nowMs - (a.port q).lastValidMs) % 4294967296)) := by
  unfold fellAt
  rw [silenceOverdue_eq, Bool.and_assoc, ← ha.nowMs]
  rfl

/-- The port of the request itself does not fall silent. -/
theorem fellAt_arrival (wrote : Nat → Bool) (c : Settings) (p : Port) (s : State) :
    fellAt wrote c (validArrival p s) p = false := by
  unfold fellAt
  rw [not_silenceOverdue_of_arrival, Bool.and_false]
  exact (validArrival_lastValid p s).trans (validArrival_arrived p s).nowMs.symm

theorem EffectFrame.now {s u : State} (h : EffectFrame s u) : u.now = s.now := by
  unfold EffectFrame at h
  rw [h]

theorem EffectFrame.arrived {s a u : State} {c : Settings} (ha : Arrived s a) (h : EffectFrame (a.setSettings c) u) :
    u = { s with settings := c, stations := u.stations, twists := u.twists, ports := u.ports, queues := u.queues } := by
  unfold EffectFrame at h
  rw [ha] at h
  exact h

theorem settingsTaken_arrived {s a : State} (ha : Arrived s a) (wrote : Nat → Bool) (c : Settings) :
    settingsTaken wrote (a.setSettings c) =
      effectsMade c (stalledAt wrote c s) (upLongAt wrote c s) (downLongAt wrote c s) (fellAt wrote c a) s (a.setSettings c) :=
  settingsTaken_eq ⟨rfl, ha.station, ha.nowMs⟩ ha.twist

end Sys2Proof.Laws

namespace Sys2Proof.Proofs

open Sys2Proof.Machine Sys2Proof.Safety Sys2Proof.Laws

/-- Settles O50: the written settings' effects are the model's folds, read before they begin (`settingsTaken_arrived`). -/
theorem settingsAreWrittenWhole : Obligations.SettingsAreWrittenWhole := by
  refine ⟨fun f c clamped pair rest => ⟨rfl, writePairs_cons f c clamped pair rest⟩, fun c v => ?_, fun s code v => ?_,
    fun p pairs s hL h1 h2 => ?_⟩
  · intro num coded w cal
    exact ⟨map_ofCode retryWait_ofCode _ v, num_eq (by decide) v fun x => { c with windowLimit := x },
      map_ofCode scale_ofCode _ v, num_eq (by decide) v fun x => { c with runUpLimit := x },
      num_eq (by decide) v fun x => { c with runDownLimit := x }, rfl, rfl,
      num_eq (by decide) v fun x => { c with lowMark := x }, write_loom c v,
      num_eq (by decide) v fun x => { c with tagsLow := x }, num_eq (by decide) v fun x => { c with listHigh := x },
      write_silence c v, fun no h => write_none c v h, fun k => ⟨writeCal_edge c v k, writeCal_filter c v k⟩,
      fun t => ⟨writeCal_capstan c v t, writeCal_flyer c v t⟩, writeCal_wheel c v, fun no h => writeCal_none c v h⟩
  · have hcode (n : Byte) : code = n ↔ code.toNat = n.toNat := BitVec.toNat_inj.symm
    rw [calMoving_iff, wheelMoving_iff, hcode, hcode, hcode]
    exact or_congr (exists_congr fun t => and_congr_left fun _ => twistMoving_iff) Iff.rfl
  · intro a wrote
    have ha : Arrived s a := validArrival_arrived p s
    refine ⟨fun hw => settingsWrite_only hL h1 h2 fun ps qs => serveSettingsWrite_unwritten hw,
      fun c clamped hw => ⟨fun hn => ?_, fun hn => ?_⟩, fun hw => calWrite_only hL h1 h2 fun ps qs => serveCalWrite_unwritten hw,
      fun c clamped hw => ⟨fun ⟨x, hx, hm⟩ => ?_, fun hm => ?_⟩⟩
    · obtain ⟨x, hx, hn⟩ := hn
      exact settingsWrite_only hL h1 h2 fun ps qs =>
        serveSettingsWrite_held hw (List.any_eq_true.mpr ⟨x, hx, needleHeld_iff.mpr hn⟩)
    · intro stalled upLong downLong fell twists warned windowsExpired runUpsMarked runDownsMarked silenced kept
      have hfell : fellAt wrote c a = fell := funext fun q => by
        rw [fellAt_eq ha]
        dsimp only [fell]
        generalize c.silence[q] = x
        cases x <;> rfl
      have hmade : settingsTaken wrote (a.setSettings c) = effectsMade c stalled upLong downLong fell s (a.setSettings c) := by
        rw [← hfell]
        exact settingsTaken_arrived ha wrote c
      have hframe := effectsMade_frame c stalled upLong downLong fell s (a.setSettings c)
      have hp := effectsMade_port c stalled upLong downLong fell s (a.setSettings c) (hfell ▸ fellAt_arrival wrote c p s)
      have hneedle : pairs.any (needleHeld s) = false := List.any_eq_false.mpr fun x hx h =>
        (needleHeld_iff.mp h).elim (fun h => h.2 ((hn x hx).1 h.1)) fun h => h.2 ((hn x hx).2 h.1)
      have hans := settingsWrite_written hL h1 h2 hw hneedle (hmade ▸ hp) (hmade ▸ hframe.now)
      have hkept := fun i => effectsMade_kept c stalled upLong downLong fell s (a.setSettings c) (i := i)
      refine ⟨_, hmade ▸ hans, hframe.arrived ha, rfl, effectsMade_live c stalled upLong downLong fell s (a.setSettings c),
        fun i q hq hi hc => effectsMade_has c stalled upLong downLong fell s (a.setSettings c) hq hi hc,
        fun i hi => (hkept i hi).1.trans (ha.station i), fun t ht => ?_,
        fun ht hq => effectsMade_none c stalled upLong downLong fell s (a.setSettings c) ht hq⟩
      intro w
      have hw : (a.setSettings c).twist t = w := ha.twist t
      obtain ⟨-, htw⟩ := hkept (twiSta t) ht
      rw [htw t rfl, hw]
      exact ⟨rfl, rfl, rfl, rfl, rfl, rfl⟩
    · exact calWrite_only hL h1 h2 fun ps qs => serveCalWrite_moving hw (List.any_eq_true.mpr ⟨x, hx, hm⟩)
    · exact calWrite_written hL h1 h2 hw (List.any_eq_false.mpr fun x hx => by rw [hm x hx]; simp)

end Sys2Proof.Proofs
end

section
/-! LOT_CREATE (O26). -/

namespace Sys2Proof.Laws

open Sys2Proof.Machine Sys2Proof.Safety

/-! ## Numbers in use and empty slots (R23, R29) -/

theorem lot?_isSome_iff {s : State} {n : Nat} :
    (s.lot? n).isSome = true ↔ ∃ (k : Slot) (l : Lot), s.lots[k] = some l ∧ l.number = n := by
  rw [Option.isSome_iff_ne_none, ne_eq, lot?_eq_none, slotOf_eq_none]
  simp only [not_forall, ne_eq, not_not, exists_prop]

theorem emptySlot_eq_none {s : State} : s.emptySlot = none ↔ ∀ k : Slot, s.lots[k] ≠ none := by
  unfold State.emptySlot
  rw [List.find?_eq_none]
  refine ⟨fun h k hk => h k (List.mem_finRange k) (by rw [hk]; rfl), fun h k _ hk => h k ?_⟩
  exact Option.isNone_iff_eq_none.mp hk

/-- The lowest slot whose record is EMPTY. -/
theorem emptySlot_eq_some {s : State} {k : Slot} (hk : s.lots[k] = none) (hlow : ∀ j, j < k → s.lots[j] ≠ none) :
    s.emptySlot = some k := by
  unfold State.emptySlot allSlots
  rw [List.find?_eq_some_iff_getElem]
  refine ⟨by rw [hk]; rfl, k.val, by simp, by simp, fun j hj => ?_⟩
  rw [List.getElem_finRange, Bool.not_eq_true', ← Bool.not_eq_true, Option.isNone_iff_eq_none]
  exact hlow _ hj

/-! ## The request (R29) -/

theorem serveLotCreate_undefined {n : BitVec 16} {kind : Byte} (h : freshBuild kind = none ∨ n = 0) (s : State) :
    serveLotCreate n kind s = refuse .outOfRange s := by
  unfold serveLotCreate
  dsimp only
  split
  · rfl
  · next b hb =>
    refine if_pos ?_
    rw [h.resolve_left (by rw [hb]; nofun)]; rfl

/-- The request of a kind and a number that are defined, past the first refusal. -/
theorem serveLotCreate_defined {n : BitVec 16} {kind : Byte} {b : Build} (hb : freshBuild kind = some b) (hn : n ≠ 0)
    (s : State) :
    serveLotCreate n kind s =
      if (s.lot? n.toNat).isSome then refuse .duplicate s
      else match s.emptySlot with
        | none => refuse .tableFull s
        | some k => answerOk (raise .lot (.lot n.toNat) 0x201 (s.setLot k (some (.fresh n.toNat b)))) := by
  unfold serveLotCreate
  rw [hb]
  dsimp only
  rw [if_neg fun h : n.toNat = 0 => hn (BitVec.eq_of_toNat_eq h)] <;> rfl

/-- A LOT notice beside the write of a lot's record leaves what an answer needs. -/
theorem raise_setLot_noticed (cls : NoticeClass) (sub : Subject) (d : BitVec 16) (k : Slot) (o : Option Lot) (s : State) :
    Noticed s (raise cls sub d (s.setLot k o)) :=
  (Noticed.of_ports (a := s) (u := s.setLot k o) rfl rfl).trans (.of_notice (raise_frame ..))

end Sys2Proof.Laws

namespace Sys2Proof.Proofs

open Sys2Proof.Machine Sys2Proof.Safety Sys2Proof.Laws

/-- Settles O26: the checks of R29 in their order, read from the lot table that the frame's arrival leaves. -/
theorem lotCreateFillsTheLowestSlot : Obligations.LotCreateFillsTheLowestSlot := by
  intro p n kind s hL build present
  have harr : Arrived s (validArrival p s) := validArrival_arrived p s
  have hbuild : build = freshBuild kind := rfl
  have answers {code : Code} {u : State} (h : serveLotCreate n kind (validArrival p s) = (u, code, []))
      (hu : Noticed (validArrival p s) u) : Answers p 0x10 code [] (.lotCreate p n kind) s u :=
    answers_of_free (r := .lotCreate n kind) hL rfl rfl rfl h hu
  have hpresent : ((validArrival p s).lot? n.toNat).isSome = true ↔ present := by rw [harr.lot?]; exact lot?_isSome_iff
  rw [hbuild]
  refine ⟨fun h => answers (serveLotCreate_undefined h _) (.refl _), fun hb hn hp => ?_, fun hb hn hp hfull => ?_,
    fun b k hb hn hp hk hlow => ?_⟩
  · obtain ⟨b, hb⟩ := Option.ne_none_iff_exists'.mp hb
    exact answers ((serveLotCreate_defined hb hn _).trans (if_pos (hpresent.mpr hp))) (.refl _)
  · obtain ⟨b, hb⟩ := Option.ne_none_iff_exists'.mp hb
    have hserve := serveLotCreate_defined hb hn (validArrival p s)
    rw [if_neg fun h => hp (hpresent.mp h), emptySlot_eq_none.mpr (by rwa [harr.lots])] at hserve
    exact answers hserve (.refl _)
  · have hserve := serveLotCreate_defined hb hn (validArrival p s)
    rw [if_neg fun h => hp (hpresent.mp h), emptySlot_eq_some (by rwa [harr.lots]) (by rwa [harr.lots])] at hserve
    exact answers hserve (raise_setLot_noticed ..)

end Sys2Proof.Proofs
end

section
/-! LOT_WRITE (O27). -/

namespace Sys2Proof.Laws

open Sys2Proof.Machine Sys2Proof.Safety

/-! ## Numbers written (R31) -/

theorem numeric_eq {lo hi : Nat} (h : lo ≤ hi) (v : Nat) :
    numeric lo hi v = (max lo (min hi v), decide (max lo (min hi v) ≠ v)) := by
  unfold numeric
  rw [clampNat_eq h]
  by_cases e : max lo (min hi v) = v <;> simp [e]

theorem numeric_zero (hi v : Nat) : numeric 0 hi v = (min hi v, decide (min hi v ≠ v)) := by
  rw [numeric_eq (Nat.zero_le hi), Nat.max_eq_right (Nat.zero_le _)]

theorem orderedCount_eq {hi : Nat} (h : 1 ≤ hi) (started v : Nat) :
    orderedCount hi started v =
      (max (max 1 (min hi v)) started, decide (max (max 1 (min hi v)) started ≠ v)) := by
  unfold orderedCount
  rw [clampNat_eq h]
  generalize max (max 1 (min hi v)) started = stored
  by_cases e : stored = v <;> simp [e]

/-- A field that takes the number `r.1` takes the number that `r` is known to store. -/
theorem put_eq {α : Type} {v stored : Nat} {r : Nat × Bool} (f : Nat → α) (h : r = (stored, decide (stored ≠ v))) :
    some (f r.1, r.2) = some (f stored, decide (stored ≠ v)) := by rw [h]

/-! ## Constructions written (R24 to R26, R30) -/

theorem strand_write_dir (c : StrandLot) (started : Nat) : ∀ v, Build.write (.strand c) started 1 v =
    match v with
    | 0 => some (.strand { c with dir := .s }, false)
    | 1 => some (.strand { c with dir := .z }, false)
    | _ => none
  | 0 | 1 | _ + 2 => rfl

theorem rope_write_dir (c : RopeLot) (started : Nat) : ∀ v, Build.write (.rope c) started 1 v =
    match v with
    | 0 => some (.rope { c with dir := .s }, false)
    | 1 => some (.rope { c with dir := .z }, false)
    | _ => none
  | 0 | 1 | _ + 2 => rfl

theorem strand_write_undefined (c : StrandLot) (started v : Nat) :
    ∀ no, no = 0 ∨ 6 < no → Build.write (.strand c) started no v = none
  | 0, _ => rfl
  | 1, h | 2, h | 3, h | 4, h | 5, h | 6, h => by omega
  | _ + 7, _ => rfl

theorem rope_write_undefined (c : RopeLot) (started v : Nat) :
    ∀ no, no = 0 ∨ 12 < no → Build.write (.rope c) started no v = none
  | 0, _ => rfl
  | 1, h | 2, h | 3, h | 4, h | 5, h | 6, h | 7, h | 8, h | 9, h | 10, h | 11, h | 12, h => by omega
  | _ + 13, _ => rfl

theorem net_write_undefined (c : NetLot) (started v : Nat) :
    ∀ no, no = 0 ∨ 8 < no → Build.write (.net c) started no v = none
  | 0, _ => rfl
  | 1, h | 2, h | 3, h | 4, h | 5, h | 6, h | 7, h | 8, h => by omega
  | _ + 9, _ => rfl

/-- The coil length of a ROPE lot takes the slowdown distance with it, at most half of it (R31). -/
theorem rope_write_coilLen (c : RopeLot) (started v : Nat) :
    Build.write (.rope c) started 8 v =
      some (.rope { c with coilLen := max 1 (min 20000 v), slow := min c.slow (max 1 (min 20000 v) * 500) },
        decide (max 1 (min 20000 v) ≠ v ∨ max 1 (min 20000 v) * 500 < c.slow)) := by
  show some (Build.rope { c with coilLen := (numeric 1 20000 v).1, slow := min c.slow ((numeric 1 20000 v).1 * 500) },
    (numeric 1 20000 v).2 || decide ((numeric 1 20000 v).1 * 500 < c.slow)) = _
  rw [numeric_eq (by decide)]
  simp only [Bool.decide_or]

theorem write_kindCode {b : Build} {started no v : Nat} {r : Build × Bool} (h : b.write started no v = some r) :
    r.1.kindCode = b.kindCode := by
  cases b with
  | strand c | rope c | net c => obtain ⟨r', -, rfl⟩ := Option.map_eq_some_iff.mp h; rfl

theorem writeAll_cons (started : Nat) (pair : Byte × BitVec 32) (rest : List (Byte × BitVec 32)) (b : Build)
    (clamped : Bool) :
    Build.writeAll started (pair :: rest) b clamped =
      match b.write started pair.1.toNat pair.2.toNat with
      | some (b', now) => Build.writeAll started rest b' (clamped || now)
      | none => none := by
  rw [Build.writeAll]
  cases b.write started pair.1.toNat pair.2.toNat <;> rfl

/-- No pair of a LOT_WRITE changes the kind. -/
theorem writeAll_kindCode {started : Nat} (pairs : List (Byte × BitVec 32)) :
    ∀ {b : Build} {clamped : Bool} {r : Build × Bool}, Build.writeAll started pairs b clamped = some r →
      r.1.kindCode = b.kindCode := by
  induction pairs with
  | nil =>
    intro b clamped r h
    cases h; rfl
  | cons pair rest ih =>
    intro b clamped r h
    rw [writeAll_cons] at h
    cases hw : b.write started pair.1.toNat pair.2.toNat with
    | none => rw [hw] at h; cases h
    | some r' => rw [hw] at h; exact (ih h).trans (write_kindCode hw)

/-! ## The request (R30) -/

/-- The lot of a number, where its slot is known. -/
theorem lot?_of_hasLot {s : State} {k : Slot} {l : Lot} {n : Nat} (h : HasLot s k l) (hn : l.number = n) :
    s.lot? n = some l := hn ▸ hasLot_lot? h

theorem modLot_eq_setLot {s : State} {k : Slot} {l : Lot} {n : Nat} (h : HasLot s k l) (hn : l.number = n)
    (f : Lot → Lot) : modLot n f s = s.setLot k (some (f l)) := hn ▸ modLot_of_hasLot h f

theorem serveLotWrite_missing {n : BitVec 16} {s : State} (h : s.lot? n.toNat = none)
    (pairs : List (Byte × BitVec 32)) : serveLotWrite n pairs s = refuse .notFound s := by
  unfold serveLotWrite
  dsimp only
  rw [h]

theorem serveLotWrite_frozen {n : BitVec 16} {s : State} {l : Lot} (h : s.lot? n.toNat = some l) (hd : l.state ≠ .draft)
    (pairs : List (Byte × BitVec 32)) : serveLotWrite n pairs s = refuse .lotFrozen s := by
  unfold serveLotWrite
  dsimp only
  rw [h]
  exact if_pos hd

theorem serveLotWrite_refused {n : BitVec 16} {pairs : List (Byte × BitVec 32)} {s : State} {l : Lot}
    (h : s.lot? n.toNat = some l) (hd : l.state = .draft) (hw : Build.writeAll l.started pairs l.build false = none) :
    serveLotWrite n pairs s = refuse .outOfRange s := by
  unfold serveLotWrite
  dsimp only
  rw [h]
  dsimp only
  rw [if_neg (not_not.mpr hd), hw]

theorem serveLotWrite_written {n : BitVec 16} {pairs : List (Byte × BitVec 32)} {s : State} {k : Slot} {l : Lot}
    {b : Build} {clamped : Bool} (hl : HasLot s k l) (hn : l.number = n.toNat) (hd : l.state = .draft)
    (hw : Build.writeAll l.started pairs l.build false = some (b, clamped)) :
    serveLotWrite n pairs s =
      (s.setLot k (some { l with build := b }), if clamped then .clamped else .ok, []) := by
  unfold serveLotWrite
  dsimp only
  rw [lot?_of_hasLot hl hn]
  dsimp only
  rw [if_neg (not_not.mpr hd), hw]
  dsimp only
  rw [modLot_eq_setLot hl hn]

end Sys2Proof.Laws

namespace Sys2Proof.Proofs

open Sys2Proof.Machine Sys2Proof.Safety Sys2Proof.Laws

/-- Settles O27: each field is a number stored by `numeric` or `orderedCount`, or an enumeration; the pairs keep the
construction in order by `writeAll_fits`. -/
theorem lotWriteIsWhole : Obligations.LotWriteIsWhole := by
  refine ⟨fun started b clamped pair rest => ⟨rfl, writeAll_cons started pair rest b clamped⟩, fun started v => ?_,
    fun p n pairs s hL h1 h12 => ?_⟩
  · intro num count
    refine ⟨fun c => ?_, fun c => ?_, fun c => ?_⟩
    · intro w put
      refine ⟨strand_write_dir c started v, ?_, ?_, ?_, ?_, ?_, strand_write_undefined c started v⟩
      · exact put_eq (fun x => Build.strand { c with lay := x }) (numeric_eq (by decide) v)
      · exact put_eq (fun x => Build.strand { c with tol := x }) (numeric_eq (by decide) v)
      · exact put_eq (fun x => Build.strand { c with turns := x }) (numeric_eq (by decide) v)
      · exact put_eq (fun x => Build.strand { c with fill := x }) (numeric_eq (by decide) v)
      · exact put_eq (fun x => Build.strand { c with ordered := x }) (orderedCount_eq (by decide) started v)
    · intro w put half
      refine ⟨rope_write_dir c started v, ?_, ?_, ?_, ?_, ?_, ?_, rope_write_coilLen c started v, ?_, ?_, ?_, ?_,
        rope_write_undefined c started v⟩
      · exact put_eq (fun x => Build.rope { c with lay := x }) (numeric_eq (by decide) v)
      · exact put_eq (fun x => Build.rope { c with tol := x }) (numeric_eq (by decide) v)
      · exact put_eq (fun x => Build.rope { c with turns := x }) (numeric_eq (by decide) v)
      · show Option.map _ (if v ≤ 65535 then _ else _) = _
        split <;> rfl
      · show Option.map _ (if v = 3 ∨ v = 4 then _ else _) = _
        split <;> rfl
      · exact put_eq (fun x => Build.rope { c with takeUp := x }) (numeric_eq (by decide) v)
      · exact put_eq (fun x => Build.rope { c with ordered := x }) (orderedCount_eq (by decide) started v)
      · refine put_eq (fun x => Build.rope { c with slow := x }) ?_
        rw [Nat.min_comm v]
        exact numeric_zero _ v
      · exact put_eq (fun x => Build.rope { c with mark := x }) (numeric_zero 1000 v)
      · exact put_eq (fun x => Build.rope { c with slip := x }) (numeric_eq (by decide) v)
    · intro w put
      refine ⟨?_, ?_, ?_, ?_, ?_, rfl, ?_, ?_, net_write_undefined c started v⟩
      · show Option.map _ (if v ≤ 65535 then _ else _) = _
        split <;> rfl
      · exact put_eq (fun x => Build.net { c with mesh := x }) (numeric_eq (by decide) v)
      · exact put_eq (fun x => Build.net { c with knot := x }) (numeric_zero 500 v)
      · exact put_eq (fun x => Build.net { c with first := x }) (numeric_zero 255 v)
      · exact put_eq (fun x => Build.net { c with last := x }) (numeric_zero 255 v)
      · exact put_eq (fun x => Build.net { c with ordered := x }) (orderedCount_eq (by decide) started v)
      · exact put_eq (fun x => Build.net { c with missed := x }) (numeric_zero 255 v)
  · have harr : Arrived s (validArrival p s) := validArrival_arrived p s
    have hok : (Request.lotWrite n pairs).lengthOk = true := by simp [Request.lengthOk, h1, h12]
    have answers {code : Code} {u : State} (h : serveLotWrite n pairs (validArrival p s) = (u, code, []))
        (hu : Noticed (validArrival p s) u) : Answers p 0x11 code [] (.lotWrite p n pairs) s u :=
      answers_of_free (r := .lotWrite n pairs) hL rfl hok rfl h hu
    refine ⟨fun h => answers (serveLotWrite_missing (by rwa [harr.lot?]) _) (.refl _), fun k l hl hn => ?_⟩
    have hla : HasLot (validArrival p s) k l := harr.hasLot hl
    have hfind := lot?_of_hasLot hla hn
    refine ⟨fun hd => answers (serveLotWrite_frozen hfind hd _) (.refl _),
      fun hd hw => answers (serveLotWrite_refused hfind hd hw) (.refl _), fun b clamped hd hw => ⟨?_, fun hb hs => ?_⟩⟩
    · exact answers (serveLotWrite_written hla hn hd hw) (.of_ports rfl rfl)
    · obtain ⟨hfit, hord⟩ := writeAll_fits pairs ⟨hb, hs⟩ hw
      exact ⟨hfit, hord, writeAll_kindCode pairs hw⟩

end Sys2Proof.Proofs
end

section
/-! LOT_CHECK (O28). -/

namespace Sys2Proof.Laws

open Sys2Proof.Machine Sys2Proof.Safety

/-! ## The CRC-16 (R32) -/

/-- The CRC-16 shifts in the bits of its bytes, most significant bit first. -/
theorem crc16_eq (bytes : List Byte) :
    crc16 bytes = (bytes.flatMap fun b => [7, 6, 5, 4, 3, 2, 1, 0].map b.getLsbD).foldl
      (fun (reg : BitVec 16) bit => if (reg.getLsbD 15).xor bit then (reg <<< 1) ^^^ 0x1021 else reg <<< 1) 0xFFFF := by
  unfold crc16
  rw [List.foldl_flatMap]
  rfl

/-! ## The serialized form (R32) -/

theorem u1_eq (v : Nat) : u1 v = [BitVec.ofNat 8 v] := by simp [u1, bytesOf]

theorem u2_eq (v : Nat) : u2 v = [BitVec.ofNat 8 (v / 256), BitVec.ofNat 8 v] := by simp [u2, bytesOf]

theorem Dir.byte_code (d : Dir) : BitVec.ofNat 8 d.code = match d with | .s => (0 : Byte) | .z => 1 := by cases d <;> rfl

theorem TaperStep.byte_eq (x : TaperStep) :
    x.byte = match x with | .inward => (0xFF : Byte) | .none => 0 | .outward => 1 := by cases x <;> rfl

/-! ## The chain of a NET lot (R33) -/

/-- A path of segments that hold rows leads from `head` along next, and ends with its segment `n`. -/
def Leads (segs : SegIx → Segment) (head : SegIx) (n : Nat) (path : Nat → SegIx) : Prop :=
  path 0 = head ∧ (∀ m, m < n → (segs (path m)).next = some (path (m + 1))) ∧ (segs (path n)).next = none ∧
    ∀ m, m ≤ n → 0 < (segs (path m)).rows

namespace Leads

variable {segs : SegIx → Segment} {head : SegIx} {n : Nat} {path : Nat → SegIx} (h : Leads segs head n path)
include h

/-- Where a path stands twice on a segment it goes on alike. -/
theorem shift {i j : Nat} (e : path i = path j) : ∀ d, j + d ≤ n → i + d ≤ n → path (i + d) = path (j + d)
  | 0, _, _ => e
  | d + 1, hj, hi => by
    obtain ⟨-, hnext, -, -⟩ := h
    have hi' := hnext (i + d) (by omega)
    rw [shift e d (by omega) (by omega), hnext (j + d) (by omega)] at hi'
    exact (Option.some.inj hi').symm

/-- No segment stands twice on a path: after its second place the path would not end. -/
theorem injOn {i j : Nat} (hij : i < j) (hj : j ≤ n) : path i ≠ path j := by
  intro e
  have hend := h.shift e (n - j) (by omega) (by omega)
  rw [show j + (n - j) = n by omega] at hend
  obtain ⟨-, hnext, hnone, -⟩ := h
  have hsome := hnext (i + (n - j)) (by omega)
  rw [hend, hnone] at hsome
  cases hsome

/-- A path is no longer than the plan memory. -/
theorem lt_card : n < 64 := by
  have hinj : Function.Injective fun m : Fin (n + 1) => path m.val := by
    intro a b e
    rcases Nat.lt_trichotomy a.val b.val with hab | hab | hab
    · exact absurd e (h.injOn hab (by omega))
    · exact Fin.ext hab
    · exact absurd e.symm (h.injOn hab (by omega))
  have hcard := Fintype.card_le_of_injective _ hinj
  rw [Fintype.card_fin, Fintype.card_fin] at hcard
  omega

/-- The walk along a path, from its place `m` on. -/
theorem chainFrom_eq : ∀ fuel m, m ≤ n → n - m < fuel →
    chainFrom segs fuel (path m) ((List.range m).map path) = some ((List.range (n + 1)).map path)
  | 0, _, _, hf => absurd hf (Nat.not_lt_zero _)
  | fuel + 1, m, hm, hf => by
    have hseen : path m ∉ (List.range m).map path := by
      rw [List.mem_map]
      rintro ⟨i, hi, e⟩
      exact h.injOn (List.mem_range.mp hi) hm e
    have hgrow : (List.range m).map path ++ [path m] = (List.range (m + 1)).map path := by
      rw [List.range_succ, List.map_append]; rfl
    have hrows := h.2.2.2 m hm
    rw [chainFrom, if_neg (by rintro (e | e); exacts [by omega, hseen e]), hgrow]
    rcases Nat.lt_or_ge m n with hlt | hge
    · rw [h.2.1 m hlt]
      exact chainFrom_eq fuel (m + 1) hlt (by omega)
    · obtain rfl : m = n := Nat.le_antisymm hm hge
      rw [h.2.2.1]

end Leads

/-- A path with a segment put before it. -/
def before (i : SegIx) (path : Nat → SegIx) : Nat → SegIx
  | 0 => i
  | m + 1 => path m

/-- A walk that ends has a path. -/
theorem exists_leads_of_chainFrom {segs : SegIx → Segment} : ∀ {fuel : Nat} {i : SegIx} {seen xs : List SegIx},
    chainFrom segs fuel i seen = some xs → ∃ n path, Leads segs i n path
  | 0, _, _, _, h => by cases h
  | fuel + 1, i, seen, xs, h => by
    rw [chainFrom] at h
    split at h
    · cases h
    · next hok =>
      have hrows : 0 < (segs i).rows := Nat.pos_of_ne_zero fun e => hok (.inl e)
      cases hnext : (segs i).next with
      | none => exact ⟨0, fun _ => i, rfl, fun m hm => absurd hm (Nat.not_lt_zero m), hnext, fun _ _ => hrows⟩
      | some j =>
        rw [hnext] at h
        obtain ⟨n, path, h0, hstep, hend, hpos⟩ := exists_leads_of_chainFrom h
        refine ⟨n + 1, before i path, rfl, fun m hm => ?_, hend, fun m hm => ?_⟩
        · cases m with
          | zero => rw [before, before, hnext, h0]
          | succ m => exact hstep m (by omega)
        · cases m with
          | zero => exact hrows
          | succ m => exact hpos m (by omega)

theorem chain_of_leads {s : State} {head : SegIx} {n : Nat} {path : Nat → SegIx} (h : Leads s.segment head n path) :
    s.chain head = some ((List.range (n + 1)).map path) := by
  have hwalk := h.chainFrom_eq 64 0 (Nat.zero_le n) (by have := h.lt_card; omega)
  rw [h.1] at hwalk
  exact hwalk

/-- A chain is sound exactly where a path leads from its head to END. -/
theorem chain_isNone_iff {s : State} {head : SegIx} :
    (s.chain head).isNone = true ↔ ∀ n path, ¬ Leads s.segment head n path := by
  rw [Option.isNone_iff_eq_none]
  constructor
  · intro hn n path h
    rw [chain_of_leads h] at hn
    cases hn
  · intro h
    by_contra hn
    obtain ⟨xs, hxs⟩ := Option.ne_none_iff_exists'.mp hn
    obtain ⟨n, path, hp⟩ := exists_leads_of_chainFrom hxs
    exact h n path hp

/-! ## The plan (R33) -/

theorem strandOf_eq_some {s : State} {n : Nat} {t : StrandLot} :
    s.strandOf n = some t ↔ ∃ k l, HasLot s k l ∧ l.number = n ∧ l.build = .strand t := by
  unfold State.strandOf
  rw [Option.bind_eq_some_iff]
  constructor
  · rintro ⟨l, hl, ht⟩
    obtain ⟨k, hk⟩ := lot?_hasLot hl
    refine ⟨k, l, hk, lot?_number hl, ?_⟩
    cases hb : l.build with
    | strand c => rw [hb] at ht; cases ht; rfl
    | rope c | net c => rw [hb] at ht; cases ht
  · rintro ⟨k, l, hk, hn, hb⟩
    exact ⟨l, lot?_of_hasLot hk hn, by rw [hb]; rfl⟩

theorem strandOf_eq_none {s : State} {n : Nat}
    (h : ∀ t, ¬ ∃ k l, HasLot s k l ∧ l.number = n ∧ l.build = .strand t) : s.strandOf n = none :=
  Option.eq_none_iff_forall_ne_some.mpr fun t ht => h t (strandOf_eq_some.mp ht)

theorem planReason_rope (c : RopeLot) (s : State) :
    planReason (.rope c) s =
      match s.strandOf c.strandLot with
      | none => some 1
      | some t => if c.dir = t.dir then some 2 else none := rfl

theorem planReason_net (c : NetLot) (s : State) :
    planReason (.net c) s =
      match s.strandOf c.strandLot with
      | none => some 1
      | some _ => if c.last < c.first then some 3 else if (s.chain c.head).isNone then some 4 else none := rfl

theorem Arrived.planReason {s a : State} (h : Arrived s a) (b : Build) : planReason b a = Machine.planReason b s := by
  rw [h]; rfl
theorem Arrived.checkValue {s a : State} (h : Arrived s a) (b : Build) : checkValue b a = Machine.checkValue b s := by
  rw [h]; rfl

/-! ## The request (R34) -/

theorem serveLotCheck_eq (n value : BitVec 16) (s : State) :
    serveLotCheck n value s =
      match s.lot? n.toNat with
      | none => refuse .notFound s
      | some l =>
        if l.state ≠ .draft then refuse .wrongState s
        else
          match planReason l.build s with
          | some reason => (s, .planInvalid, u2 0 ++ u1 reason)
          | none =>
            if checkValue l.build s = value then
              tell (w2 (checkValue l.build s) ++ u1 0)
                (moveLot n.toNat .ready (modLot n.toNat (fun l' => { l' with check := checkValue l.build s }) s))
            else (s, .checkMismatch, w2 (checkValue l.build s) ++ u1 0) := rfl

/-- The lot made READY with its check value kept, and its notice. -/
theorem moveLot_modLot {s : State} {k : Slot} {l : Lot} {n : Nat} (hl : HasLot s k l) (hn : l.number = n) (v : BitVec 16) :
    moveLot n .ready (modLot n (fun l' => { l' with check := v }) s) =
      raise .lot (.lot n) 0x202 (s.setLot k (some { l with check := v, state := .ready })) := by
  have hl' : HasLot (s.setLot k (some { l with check := v })) k { l with check := v } := hasLot_setLot hl rfl
  rw [modLot_eq_setLot hl hn, moveLot_of_hasLot hl' hn, setLot_setLot]
  rfl

end Sys2Proof.Laws

namespace Sys2Proof.Proofs

open Sys2Proof.Machine Sys2Proof.Safety Sys2Proof.Laws

/-- Settles O28: the plan's reasons and the check value from what stands, `Leads` being the sound chain; then the request. -/
theorem lotCheckFreezes : Obligations.LotCheckFreezes := by
  refine ⟨fun s => ?_, fun p n value s hL => ?_⟩
  · intro names chain two dir step crc
    have hvalue (b : Build) : checkValue b s = crc (serialize b s) := crc16_eq _
    refine ⟨fun c => ⟨rfl, ?_⟩, fun c => ⟨fun h => ?_, fun t ht => ?_, ?_⟩, fun c => ⟨fun h => ?_, fun t ht => ?_,
      fun n path hp => ?_⟩⟩
    · rw [hvalue]
      refine congrArg crc ?_
      simp only [serialize, Build.kindCode, Build.fields, u1_eq, u2_eq, Dir.byte_code, List.append_nil]
      rfl
    · rw [planReason_rope, strandOf_eq_none h]
    · rw [planReason_rope, strandOf_eq_some.mpr ht]
    · rw [hvalue]
      refine congrArg crc ?_
      simp only [serialize, Build.kindCode, Build.fields, u1_eq, u2_eq, Dir.byte_code, List.append_nil]
      rfl
    · rw [planReason_net, strandOf_eq_none h]
    · have hplan := planReason_net c s
      rw [strandOf_eq_some.mpr ht] at hplan
      refine ⟨fun hlt => hplan.trans (if_pos hlt), fun hle hno => ?_, fun hle ⟨n, path, hp⟩ => ?_⟩
      · exact hplan.trans ((if_neg (Nat.not_lt.mpr hle)).trans (if_pos (chain_isNone_iff.mpr hno)))
      · exact hplan.trans ((if_neg (Nat.not_lt.mpr hle)).trans (if_neg fun h => chain_isNone_iff.mp h n path hp))
    · rw [hvalue]
      refine congrArg crc ?_
      simp only [serialize, Build.kindCode, Build.fields, chain_of_leads hp, Option.getD_some, List.flatMap_map,
        Segment.serial, TaperStep.byte_eq, u1_eq, u2_eq]
      rfl
  · have harr : Arrived s (validArrival p s) := validArrival_arrived p s
    have answers {code : Code} {payload : List Byte} {u : State}
        (h : serveLotCheck n value (validArrival p s) = (u, code, payload)) (hu : Noticed (validArrival p s) u) :
        Answers p 0x12 code payload (.lotCheck p n value) s u :=
      answers_of_free (r := .lotCheck n value) hL rfl rfl rfl h hu
    have hserve := serveLotCheck_eq n value (validArrival p s)
    rw [harr.lot?] at hserve
    refine ⟨fun h => answers (hserve.trans (by rw [h] <;> rfl)) (.refl _), ?_⟩
    intro k l hl hn v
    have hla : HasLot (validArrival p s) k l := harr.hasLot hl
    rw [lot?_of_hasLot hl hn] at hserve
    dsimp only at hserve
    rw [harr.planReason, harr.checkValue, moveLot_modLot hla hn] at hserve
    refine ⟨fun hd => answers (hserve.trans (if_pos hd)) (.refl _), fun reason hd hr => ?_, fun hd hr hv => ?_,
      fun hd hr hv => ?_⟩
    · rw [if_neg (not_not.mpr hd), hr] at hserve
      dsimp only at hserve
      rw [u1_eq reason] at hserve
      exact answers hserve (.refl _)
    · rw [if_neg (not_not.mpr hd), hr] at hserve
      exact answers (hserve.trans (if_neg hv)) (.refl _)
    · rw [if_neg (not_not.mpr hd), hr] at hserve
      exact answers (hserve.trans (if_pos hv)) (raise_setLot_noticed ..)

end Sys2Proof.Proofs
end

section
/-! LOT_REOPEN, LOT_HOLD and LOT_RESUME (O29). -/

namespace Sys2Proof.Laws

open Sys2Proof.Machine Sys2Proof.Safety

/-! ## What the requests do with a lot that is present (R35, R40, R41) -/

theorem serveLotReopen_found {n : BitVec 16} {s : State} {l : Lot} (h : s.lot? n.toNat = some l) :
    serveLotReopen n s =
      if l.state = .ready then answerOk (moveLot l.number .draft s) else refuse .wrongState s := by
  unfold serveLotReopen
  rw [h]

theorem serveLotHold_found {n : BitVec 16} {s : State} {l : Lot} (h : s.lot? n.toNat = some l) :
    serveLotHold n s =
      if l.state = .active then answerOk (raiseOnAll l.stations .lotHold (moveLot l.number .held s))
      else if l.state = .held then answerOk s
      else refuse .wrongState s := by
  unfold serveLotHold
  rw [h]
  dsimp only
  cases l.state <;> rfl

theorem serveLotResume_found {n : BitVec 16} {s : State} {l : Lot} (h : s.lot? n.toNat = some l) :
    serveLotResume n s =
      if l.state = .held then
        answerOk (removeFromAll l.stations .lotHold (moveLot l.number (if l.stations = 0 then .ready else .active) s))
      else if l.state = .complete ∨ l.state = .closed then answerOk (removeFromAll l.stations .lotHold s)
      else refuse .wrongState s := by
  unfold serveLotResume
  rw [h]
  dsimp only
  cases l.state <;> rfl

theorem moveLot_noticed (n : Nat) (st : LotState) (s : State) : Noticed s (moveLot n st s) := .of_lot (moveLot_frame ..)

theorem raiseOnAll_noticed (set : BitSet 8) (c : Cause) (s : State) : Noticed s (raiseOnAll set c s) :=
  .of_move (raiseOnAll_move ..)

theorem removeFromAll_noticed (set : BitSet 8) (c : Cause) (s : State) : Noticed s (removeFromAll set c s) :=
  .of_move (removeFromAll_move ..)

end Sys2Proof.Laws

namespace Sys2Proof.Proofs

open Sys2Proof.Machine Sys2Proof.Safety Sys2Proof.Laws

/-- Settles O29: each request is decided by the lot's state. -/
theorem lotsReopenHoldResume : Obligations.LotsReopenHoldResume := by
  intro p n s hL a
  have harr : Arrived s a := validArrival_arrived p s
  have reopen {code : Code} {u : State} (h : serveLotReopen n a = (u, code, [])) (hu : Noticed a u) :
      Answers p 0x13 code [] (.lotReopen p n) s u := answers_of_free (r := .lotReopen n) hL rfl rfl rfl h hu
  have hold {code : Code} {u : State} (h : serveLotHold n a = (u, code, [])) (hu : Noticed a u) :
      Answers p 0x14 code [] (.lotHold p n) s u := answers_of_free (r := .lotHold n) hL rfl rfl rfl h hu
  have resume {code : Code} {u : State} (h : serveLotResume n a = (u, code, [])) (hu : Noticed a u) :
      Answers p 0x15 code [] (.lotResume p n) s u := answers_of_free (r := .lotResume n) hL rfl rfl rfl h hu
  constructor
  · intro h
    have hnone : a.lot? n.toNat = none := (harr.lot? _).trans h
    refine ⟨reopen ?_ (.refl a), hold ?_ (.refl a), resume ?_ (.refl a)⟩
    · unfold serveLotReopen
      rw [hnone] <;> rfl
    · unfold serveLotHold
      rw [hnone] <;> rfl
    · unfold serveLotResume
      rw [hnone] <;> rfl
  · intro k l hl hn stateTo
    have hla : HasLot a k l := harr.hasLot hl
    have hfind : a.lot? n.toNat = some l := lot?_of_hasLot hla hn
    have hmove (st : LotState) : moveLot l.number st a = stateTo st := hn ▸ moveLot_of_hasLot hla hn st
    have hmoved (st : LotState) : Noticed a (stateTo st) := hmove st ▸ moveLot_noticed ..
    have hreopen := serveLotReopen_found hfind
    have hhold := serveLotHold_found hfind
    have hresume := serveLotResume_found hfind
    rw [hmove] at hreopen hhold hresume
    refine ⟨fun h => reopen (hreopen.trans (if_pos h)) (hmoved _), fun h => reopen (hreopen.trans (if_neg h)) (.refl a),
      fun h => ?_, fun h => ?_, fun h1 h2 => ?_, fun h => ?_, fun h => ?_, fun h => ?_⟩
    · exact hold (hhold.trans (if_pos h)) ((hmoved _).trans (raiseOnAll_noticed ..))
    · exact hold (hhold.trans (by rw [h] <;> rfl)) (.refl a)
    · exact hold (hhold.trans ((if_neg h1).trans (if_neg h2))) (.refl a)
    · exact resume (hresume.trans (if_pos h)) ((hmoved _).trans (removeFromAll_noticed ..))
    · refine resume (hresume.trans ((if_neg ?_).trans (if_pos h))) (removeFromAll_noticed ..)
      rcases h with h | h <;> rw [h] <;> decide
    · refine resume (hresume.trans ?_) (.refl a)
      rcases h with h | h | h <;> rw [h] <;> rfl

end Sys2Proof.Proofs
end

section
/-! LOT_CLOSE and LOT_DELETE (O30). -/

namespace Sys2Proof.Laws

open Sys2Proof.Machine Sys2Proof.Safety

/-! ## The arbor that winds for a lot that closes (R154) -/

theorem MoveFrame.meter {s t : State} (h : MoveFrame s t) : t.meter = s.meter := by rw [h.1]

theorem Len.eq_zero_iff {x : Len} : x = .zero ↔ x.mm = 0 ∧ x.um = 0 := by
  cases x
  simp [Len.zero]

theorem windingArbor_congr {s t : State} (h : t.coiler = s.coiler) : t.windingArbor = s.windingArbor := by
  unfold State.windingArbor
  rw [h]

theorem arbor_congr {s t : State} (h : t.coiler = s.coiler) (id : ArborId) : t.arbor id = s.arbor id := by
  unfold State.arbor
  rw [h]

theorem closeArbor_idle {n : Nat} {s : State}
    (h : ∀ id c, s.windingArbor = some id → (s.arbor id).coil? = some c → c.lot ≠ n) : closeArbor n s = s := by
  unfold closeArbor
  split
  · next id hid =>
    split
    · next ph c hc => exact if_neg (h id c hid (by rw [hc]; rfl))
    · rfl
  · rfl

/-- A coil without length is dropped, and its start withdrawn. -/
theorem closeArbor_empty {s : State} {k : Slot} {l : Lot} {id : ArborId} {ph : ArborPhase} {c : Coil} (hl : HasLot s k l)
    (hid : s.windingArbor = some id) (hc : s.arbor id = .busy ph c) (hn : c.lot = l.number)
    (hz : c.length.mm = 0 ∧ c.length.um = 0) :
    closeArbor l.number s =
      { s with
        coiler := s.coiler.setArbor id .free
        meter := { s.meter with slipOpen := false, winCap := 0, winWheel := 0 }
        lots := s.lots.set k (some { l with started := l.started - 1 }) } := by
  have hl' : HasLot (discardSlip (s.setArbor id .free)) k l := HasLot.congr hl rfl
  unfold closeArbor
  rw [hid]
  dsimp only
  rw [hc]
  dsimp only
  rw [if_pos hn, if_pos (Len.eq_zero_iff.mpr hz)]
  exact modLot_of_hasLot hl' _

/-- A coil with length is cut as a remnant. -/
theorem closeArbor_remnant {n : Nat} {s : State} {id : ArborId} {ph : ArborPhase} {c : Coil}
    (hid : s.windingArbor = some id) (hc : s.arbor id = .busy ph c) (hn : c.lot = n)
    (hz : 0 < c.length.mm ∨ 0 < c.length.um) :
    closeArbor n s = cutCauses (s.arbor id.other) (s.setArbor id (.busy .cutting { c with remnant := true })) := by
  have hmod : modCoil id (fun c => { c with remnant := true }) s = s.setArbor id (.busy ph { c with remnant := true }) := by
    unfold modCoil
    rw [hc]
  unfold closeArbor
  rw [hid]
  dsimp only
  rw [hc]
  dsimp only
  rw [if_pos hn, if_neg (fun h => by have := Len.eq_zero_iff.mp h; omega), hmod, cutPoint_eq (arbor_setArbor ..),
    arbor_setArbor_other, setArbor_setArbor]

/-! ## What refers to a lot (R43) -/

theorem mem_allStations (i : Sta) : i ∈ allStations := by revert i; decide

theorem mem_coils {k : Coiler} {c : Coil} :
    c ∈ [k.a, k.b].filterMap Arbor.coil? ↔ ∃ id, (k.arbor id).coil? = some c := by
  rw [List.mem_filterMap]
  constructor
  · rintro ⟨r, hr, hc⟩
    rcases List.mem_cons.mp hr with rfl | hr
    · exact ⟨.a, hc⟩
    · obtain rfl := List.mem_singleton.mp hr
      exact ⟨.b, hc⟩
  · rintro ⟨id, hc⟩
    exact ⟨k.arbor id, by cases id <;> simp [Coiler.arbor], hc⟩

theorem referred_iff {n : Nat} {s : State} :
    referred n s = true ↔
      (∃ i, (s.station i).lot = some n) ∨ (∃ b ∈ s.bobbins, b.lot = some n ∧ b.state ≠ .spare) ∨
        (∃ id c, (s.arbor id).coil? = some c ∧ c.lot = n) ∨ ∃ c ∈ s.coiler.outbound, c.lot = n := by
  have hsta : allStations.any (fun i => (s.station i).lot == some n) = true ↔ ∃ i, (s.station i).lot = some n := by
    simp [mem_allStations]
  have hcoil : (([s.coiler.a, s.coiler.b].filterMap Arbor.coil? ++ s.coiler.outbound).any fun c => c.lot == n) = true ↔
      (∃ id c, (s.arbor id).coil? = some c ∧ c.lot = n) ∨ ∃ c ∈ s.coiler.outbound, c.lot = n := by
    rw [List.any_append, Bool.or_eq_true, List.any_eq_true, List.any_eq_true]
    simp only [mem_coils, beq_iff_eq]
    refine or_congr ⟨fun ⟨c, ⟨id, hc⟩, hn⟩ => ⟨id, c, hc, hn⟩, fun ⟨id, c, hc, hn⟩ => ⟨c, ⟨id, hc⟩, hn⟩⟩ Iff.rfl
  unfold referred
  rw [Bool.or_eq_true, Bool.or_eq_true, hsta, hcoil, or_assoc]
  refine or_congr Iff.rfl (or_congr ?_ Iff.rfl)
  simp [List.any_eq_true]

theorem Arrived.referred {s a : State} (h : Arrived s a) (n : Nat) : referred n a = Machine.referred n s := by rw [h]; rfl

/-! ## The requests (R42, R43) -/

theorem serveLotClose_found {n : BitVec 16} {s : State} {l : Lot} (h : s.lot? n.toNat = some l) :
    serveLotClose n s =
      if l.state = .draft ∨ l.state = .closed then refuse .wrongState s
      else answerOk (closeArbor l.number (raiseOnAll l.stations .lotEnd (moveLot l.number .closed s))) := by
  unfold serveLotClose
  rw [h]
  dsimp only
  cases l.state <;> rfl

theorem serveLotDelete_found {n : BitVec 16} {s : State} {k : Slot} {l : Lot} (hl : HasLot s k l) (hn : l.number = n.toNat) :
    serveLotDelete n s =
      if (l.state = .closed ∨ l.state = .draft) ∧ referred l.number s = false then
        answerOk (raise .lot (.lot l.number) wordEmpty (s.setLot k none))
      else refuse .wrongState s := by
  unfold serveLotDelete
  rw [lot?_of_hasLot hl hn, ← hn, hl.1]

theorem cutCauses_noticed (other : Arbor) (s : State) : Noticed s (cutCauses other s) := .of_move (cutCauses_move ..)

end Sys2Proof.Laws

namespace Sys2Proof.Proofs

open Sys2Proof.Machine Sys2Proof.Safety Sys2Proof.Laws

/-- Settles O30: a close is the lot's move, LOT_END on its stations, and `closeArbor`; a delete asks `referred`. -/
theorem lotsCloseAndGo : Obligations.LotsCloseAndGo := by
  intro p n s hL a
  have harr : Arrived s a := validArrival_arrived p s
  have close {code : Code} {u : State} (h : serveLotClose n a = (u, code, [])) (hu : Noticed a u) :
      Answers p 0x16 code [] (.lotClose p n) s u := answers_of_free (r := .lotClose n) hL rfl rfl rfl h hu
  have delete {code : Code} {u : State} (h : serveLotDelete n a = (u, code, [])) (hu : Noticed a u) :
      Answers p 0x17 code [] (.lotDelete p n) s u := answers_of_free (r := .lotDelete n) hL rfl rfl rfl h hu
  constructor
  · intro h
    have hnone : a.lot? n.toNat = none := (harr.lot? _).trans h
    refine ⟨close ?_ (.refl a), delete ?_ (.refl a)⟩
    · unfold serveLotClose
      rw [hnone] <;> rfl
    · unfold serveLotDelete
      rw [hnone, lot?_eq_none.mp hnone] <;> rfl
  · intro k l hl hn ended refers
    have hla : HasLot a k l := harr.hasLot hl
    have hended : raiseOnAll l.stations .lotEnd (moveLot l.number .closed a) = ended := by
      rw [show moveLot l.number .closed a = moveLot n.toNat .closed a by rw [hn], moveLot_of_hasLot hla hn]
      rfl
    have hnoted : Noticed a ended := hended ▸ (moveLot_noticed ..).trans (raiseOnAll_noticed ..)
    have hframe : MoveFrame (a.setLot k (some { l with state := .closed })) ended :=
      (MoveFrame.ofNotice (raise_frame ..)).trans (raiseOnAll_move ..)
    have hcoiler : ended.coiler = s.coiler := hframe.coiler.trans harr.coiler
    have hclose := serveLotClose_found (lot?_of_hasLot hla hn)
    have hdelete := serveLotDelete_found hla hn
    have hrefers : referred l.number a = true ↔ refers := by rw [hn, harr.referred]; exact referred_iff
    rw [hended] at hclose
    refine ⟨fun h => close (hclose.trans (if_pos h)) (.refl a), fun hd hc => ?_, fun hst hno => ?_, fun h => ?_⟩
    · rw [if_neg (fun h => h.elim hd hc)] at hclose
      refine ⟨fun hno => ?_, fun id ph c hid hb hlot => ⟨fun hz => ?_, fun hz => ?_⟩⟩
      · rw [closeArbor_idle] at hclose
        · exact close hclose hnoted
        · rw [windingArbor_congr hcoiler, hn]
          simpa only [arbor_congr hcoiler] using hno
      · have hle : HasLot ended k { l with state := .closed } :=
          HasLot.congr (hasLot_setLot hla rfl) hframe.lots
        have hempty := closeArbor_empty hle ((windingArbor_congr hcoiler).trans hid) ((arbor_congr hcoiler id).trans hb)
          (hlot.trans hn.symm) hz
        have hlots : ended.lots.set k (some { l with state := .closed, started := l.started - 1 }) =
            s.lots.set k (some { l with state := .closed, started := l.started - 1 }) := by
          rw [hframe.lots, State.setLot_lots, Vector.set_set, harr.lots]
        rw [show ({ l with state := .closed } : Lot).number = l.number from rfl, hcoiler, hframe.meter, hlots] at hempty
        rw [hempty] at hclose
        have hans := close hclose (hnoted.trans (.of_ports rfl rfl))
        rw [State.setLot_meter, harr.meter] at hans
        exact hans
      · have hcut := closeArbor_remnant ((windingArbor_congr hcoiler).trans hid) ((arbor_congr hcoiler id).trans hb)
          (hlot.trans hn.symm) hz
        unfold State.setArbor at hcut
        rw [arbor_congr hcoiler, hcoiler] at hcut
        rw [hcut] at hclose
        have hset : Noticed ended (ended.setCoiler (s.coiler.setArbor id (.busy .cutting { c with remnant := true }))) :=
          .of_ports rfl rfl
        have hans := close hclose ((hnoted.trans hset).trans (cutCauses_noticed ..))
        unfold cutCauses at hans
        exact hans
    · rw [if_pos ⟨hst, by rw [← Bool.not_eq_true, hrefers]; exact hno⟩, hn] at hdelete
      exact delete hdelete (raise_setLot_noticed ..)
    · refine delete (hdelete.trans (if_neg ?_)) (.refl a)
      rintro ⟨hst, hno⟩
      rcases h with ⟨hc, hd⟩ | h
      · exact hst.elim hc hd
      · rw [hrefers.mpr h] at hno
        cases hno

end Sys2Proof.Proofs
end

section
/-! LOT_ATTACH of C0 with K0 (O32). -/

namespace Sys2Proof.Laws

open Sys2Proof.Machine Sys2Proof.Safety

/-! ## Writes beside notices -/

theorem NoticeFrame.setStation {s t : State} (h : NoticeFrame s t) (i : Sta) (r : Station) :
    NoticeFrame (s.setStation i r) (t.setStation i r) := by
  refine ⟨?_, h.2⟩
  rw [h.1]
  rfl

theorem NoticeFrame.attachPair {s t : State} (h : NoticeFrame s t) : NoticeFrame (attachPair s) (attachPair t) := by
  refine ⟨?_, h.2⟩
  rw [h.1]
  rfl

/-! ## The lot takes C0 and K0 (R37) -/

/-- The record of a ROPE lot as it takes the pair. -/
def pairLot (l : Lot) : Lot := { l with stations := l.stations ||| 0x90, state := .active }

/-- Station `i` with the lot `n`, in the state `st`. -/
def attachedTo (n : Nat) (st : RunState) (r : Station) : Station := { r with lot := some n, state := st }

/-- The pair and its lot joined, the accumulators at 0, without notices and with the stations not moved yet. -/
def pairJoined (k : Slot) (l : Lot) (s : State) : State :=
  ((((s.setStation staC0 { s.station staC0 with lot := some l.number }).setStation staK0
    { s.station staK0 with lot := some l.number }).setTwist 4 { s.twist 4 with acc := .zero }).setCoiler
      { s.coiler with wheelTally := .zero }).setLot k (some (pairLot l))

/-- What the attach of the pair leaves, but for notices and FEED_OUT (R20, R37, R95, R130, R135). -/
def pairAttached (k : Slot) (l : Lot) (s : State) : State :=
  { ((s.setStation staC0 (attachedTo l.number .standby (s.station staC0))).setStation staK0
      (attachedTo l.number .active (s.station staK0))) with
    twists := s.twists.set 4 { s.twist 4 with acc := ⟨0, 0⟩ }
    lots := s.lots.set k (some (pairLot l))
    coiler := { s.coiler with wheelTally := ⟨0, 0⟩, unassigned := ⟨0, 0⟩ }
    closerShort := ⟨0, 0⟩
    meter := { stall := false, stallDist := 0, slipOpen := false, winCap := 0, winWheel := 0, lastSlip := none } }

theorem joinLot_eq {i : Sta} {k : Slot} {l : Lot} {s : State} (hl : HasLot s k l) :
    joinLot i l.number s =
      (s.setStation i { s.station i with lot := some l.number }).setLot k
        (some { l with stations := l.stations ||| BitVec.twoPow 8 i.val }) := by
  have hl' : HasLot (s.setStation i { s.station i with lot := some l.number }) k l := HasLot.congr hl rfl
  unfold joinLot
  rw [modLot_of_hasLot hl']
  rfl

/-- C0 joins its lot first, and K0 after it; each with its accumulator. -/
theorem joinLot_pair {k : Slot} {l : Lot} {s : State} (hl : HasLot s k l) :
    zeroAcc staK0 (joinLot staK0 l.number (zeroAcc staC0 (joinLot staC0 l.number s))) =
      (pairJoined k l s).setLot k (some { l with stations := l.stations ||| 0x90 }) := by
  have hl' : HasLot (zeroAcc staC0 (joinLot staC0 l.number s)) k
      { l with stations := l.stations ||| BitVec.twoPow 8 staC0.val } := by
    refine HasLot.congr ?_ (zeroAcc_lots ..)
    rw [joinLot_eq hl]
    exact hasLot_setLot (HasLot.congr hl rfl) rfl
  have hk : (zeroAcc staC0 (joinLot staC0 l.number s)).station staK0 = s.station staK0 := by
    rw [zeroAcc_station, joinLot_station_ne _ _ _ _ (by decide)]
  have hset : (l.stations ||| BitVec.twoPow 8 staC0.val) ||| BitVec.twoPow 8 staK0.val = l.stations ||| 0x90 := by
    rw [BitVec.or_assoc]
    rfl
  have hjoin := joinLot_eq (i := staK0) hl'
  rw [hk] at hjoin
  dsimp only at hjoin
  rw [hset] at hjoin
  rw [hjoin, joinLot_eq hl, zeroAcc_setLot, zeroAcc_setLot]
  unfold pairJoined
  rw [setLot_setLot]
  exact setLot_setLot (zeroAcc staK0 ((zeroAcc staC0 (s.setStation staC0 _)).setStation staK0 _)) k _ _

/-- A READY lot becomes ACTIVE with its notice, and an ACTIVE lot stays. -/
theorem pairJoined_told {k : Slot} {l : Lot} {s : State} (hl : HasLot s k l) (hst : l.state = .ready ∨ l.state = .active) :
    (if l.state = .ready then
        moveLot l.number .active ((pairJoined k l s).setLot k (some { l with stations := l.stations ||| 0x90 }))
      else (pairJoined k l s).setLot k (some { l with stations := l.stations ||| 0x90 })) =
      activeTold l (pairJoined k l s) := by
  have hl' : HasLot ((pairJoined k l s).setLot k (some { l with stations := l.stations ||| 0x90 })) k
      { l with stations := l.stations ||| 0x90 } := by
    unfold pairJoined
    rw [setLot_setLot]
    exact hasLot_setLot (HasLot.congr hl rfl) rfl
  have htwice (x : Option Lot) : ((pairJoined k l s).setLot k x).setLot k (some (pairLot l)) = pairJoined k l s := by
    unfold pairJoined
    rw [setLot_setLot, setLot_setLot]
  unfold activeTold
  split
  · rw [moveLot_of_hasLot hl' rfl]
    exact congrArg (raise _ _ _) (htwice _)
  · next h =>
    have hact : ({ l with stations := l.stations ||| 0x90 } : Lot) = pairLot l := by
      unfold pairLot
      rw [← hst.resolve_left h]
    rw [hact]
    unfold pairJoined
    rw [setLot_setLot]

/-- The attach of the pair is its effect with notices, before FEED_OUT. -/
theorem attachCore_pair {k : Slot} {l : Lot} {s : State} (hl : HasLot s k l)
    (hst : l.state = .ready ∨ l.state = .active) : NoticeFrame (pairAttached k l s) (attachCore staC0 l s) := by
  have htold : NoticeFrame (pairJoined k l s) (activeTold l (pairJoined k l s)) := activeTold_frame ..
  have hc0 : (activeTold l (pairJoined k l s)).station staC0 = { s.station staC0 with lot := some l.number } := by
    rw [htold.station]
    exact (State.setStation_station_ne _ _ _ _ (by decide)).trans (State.setStation_station_self ..)
  have hk0 : (activeTold l (pairJoined k l s)).station staK0 = { s.station staK0 with lot := some l.number } := by
    rw [htold.station]
    exact State.setStation_station_self ..
  have hcore : attachCore staC0 l s =
      attachPair (writeStation staK0 (attachedTo l.number .active (s.station staK0))
        (writeStation staC0 (attachedTo l.number .standby (s.station staC0)) (activeTold l (pairJoined k l s)))) := by
    unfold attachCore
    simp only [beq_self_eq_true, if_true]
    rw [joinLot_pair hl, pairJoined_told hl hst, moveTo_eq_writeStation, moveTo_eq_writeStation,
      writeStation_station_ne _ _ _ _ (by decide), hc0, hk0]
    rfl
  have hwritten : NoticeFrame
      (((pairJoined k l s).setStation staC0 (attachedTo l.number .standby (s.station staC0))).setStation staK0
        (attachedTo l.number .active (s.station staK0)))
      (writeStation staK0 (attachedTo l.number .active (s.station staK0))
        (writeStation staC0 (attachedTo l.number .standby (s.station staC0)) (activeTold l (pairJoined k l s)))) :=
    (((htold.setStation ..).trans (writeStation_frame ..)).setStation ..).trans (writeStation_frame ..)
  have hpair : attachPair (((pairJoined k l s).setStation staC0 (attachedTo l.number .standby (s.station staC0))).setStation
      staK0 (attachedTo l.number .active (s.station staK0))) = pairAttached k l s := by
    have hstas : ((s.stations.set staC0 { s.station staC0 with lot := some l.number }).set staK0
        { s.station staK0 with lot := some l.number }).set staC0 (attachedTo l.number .standby (s.station staC0)) =
        (s.stations.set staC0 (attachedTo l.number .standby (s.station staC0))).set staK0
          { s.station staK0 with lot := some l.number } := by
      rw [Vector.set_comm _ _ (by decide), Vector.set_set]
    unfold pairAttached pairJoined attachPair State.setStation
    dsimp only [State.setTwist, State.setCoiler, State.setLot, State.setMeter]
    rw [hstas, Vector.set_set]
    rfl
  rw [hcore, ← hpair]
  exact hwritten.attachPair

/-! ## FEED_OUT at the attach (R97) -/

theorem feedOutAtAttach_idle {i : Sta} {s : State} (h : ∀ pl ∈ usedPlaces i s, holdsRunOut s pl = false) :
    feedOutAtAttach i s = s :=
  if_pos (List.filter_eq_nil_iff.mpr fun pl hpl hout => by
    have hsome : holdsRunOut s pl = true := hout
    rw [h pl hpl] at hsome
    cases hsome)

/-- A station in STANDBY with no cause, and with a RUN_OUT bobbin on a place it uses, is HALTED under FEED_OUT. -/
theorem feedOutAtAttach_halts {i : Sta} {pl : Place} {s : State} (hi : i ≠ staK0)
    (ha : Cause.feedOut.admissible (kindOf i) = true) (hpl : pl ∈ usedPlaces i s) (hout : holdsRunOut s pl = true)
    (hc : (s.station i).causes = 0) (hs : (s.station i).state = .standby) :
    NoticeFrame (s.setStation i { s.station i with state := .halted, causes := 0x040 }) (feedOutAtAttach i s) := by
  have hno : s.has i .feedOut = false := by unfold State.has; rw [hc]; decide
  have hrec : { withCause .feedOut s (s.station i) with state := .halted } =
      { s.station i with state := .halted, causes := 0x040 } := by
    unfold withCause
    rw [hc]
    rfl
  have hraise : NoticeFrame (s.setStation i { s.station i with state := .halted, causes := 0x040 })
      (raiseCause i .feedOut s) := by
    rw [raiseCause_eq_raiseOne _ _ _ hi, raiseOne_rest ha hno (.inl hs), hrec]
    exact ((raise_frame ..).setStation ..).trans (writeStation_frame ..)
  unfold feedOutAtAttach
  extract_lets r out
  rw [if_neg (show ¬out = [] from List.ne_nil_of_mem (List.mem_filter.mpr ⟨hpl, hout⟩))]
  exact hraise.trans (foldl_frame (F := NoticeFrame) .refl .trans _ (fun _ _ => raise_frame ..) _ _)

/-! ## The whole attach of the pair -/

/-- A position that a ROPE lot uses holds a RUN_OUT bobbin. -/
def closerRunOut (c : RopeLot) (s : State) : Prop :=
  ∃ (j : Pos) (b : Bobbin), j.val < c.strands ∧ s.bobbinAt (.closer j) = some b ∧ b.state = .runOut

theorem attachLot_closer (l : Lot) (s : State) : attachLot staC0 l s = feedOutAtAttach staC0 (attachCore staC0 l s) := by
  rw [attachLot_eq, show loomOf staC0 = none from rfl]
  exact if_pos (by decide)

/-- The attach of the pair, FEED_OUT included: `pairAttached` with C0's record as FEED_OUT leaves it. -/
theorem attachLot_pair {k : Slot} {l : Lot} {c : RopeLot} {s : State} (hl : HasLot s k l)
    (hst : l.state = .ready ∨ l.state = .active) (hc : l.build = .rope c) (hcz : (s.station staC0).causes = 0) :
    ∃ r, NoticeFrame ((pairAttached k l s).setStation staC0 r) (attachLot staC0 l s) ∧
      (closerRunOut c s → r = { s.station staC0 with lot := some l.number, state := .halted, causes := 0x040 }) ∧
      (¬ closerRunOut c s → r = attachedTo l.number .standby (s.station staC0)) := by
  have hcore := attachCore_pair hl hst
  have hbob (pl : Place) : (attachCore staC0 l s).bobbinAt pl = s.bobbinAt pl := bobbinAt_congr hcore.bobbins pl
  have hout (pl : Place) : holdsRunOut (attachCore staC0 l s) pl = holdsRunOut s pl := by
    unfold holdsRunOut
    rw [hbob]
  have hsta : (attachCore staC0 l s).station staC0 = attachedTo l.number .standby (s.station staC0) :=
    (hcore.station _).trans ((State.setStation_station_ne _ _ _ _ (by decide)).trans (State.setStation_station_self ..))
  have hlot : HasLot (attachCore staC0 l s) k (pairLot l) :=
    HasLot.congr (hasLot_setLot (l' := pairLot l) hl rfl) hcore.lots
  have hused : usedPlaces staC0 (attachCore staC0 l s) = c.positions.map .closer :=
    usedPlaces_closer (rope_eq_some (lotOf_eq_some (l := pairLot l) (by rw [hsta]; rfl) hlot) hc)
  rw [attachLot_closer]
  by_cases h : closerRunOut c s
  · have ⟨j, b, hj, hb, hr⟩ := h
    refine ⟨_, ?_, fun _ => rfl, fun hn => absurd h hn⟩
    have hhalt := feedOutAtAttach_halts (i := staC0) (pl := .closer j) (s := attachCore staC0 l s) (by decide) (by decide)
      (by rw [hused]; exact List.mem_map_of_mem (mem_positions.mpr hj))
      (by rw [hout]; exact holdsRunOut_iff.mpr ⟨b, hb, hr⟩) (by rw [hsta]; exact hcz) (by rw [hsta]; rfl)
    rw [hsta] at hhalt
    exact (hcore.setStation staC0 _).trans hhalt
  · refine ⟨_, ?_, fun hn => absurd hn h, fun _ => rfl⟩
    rw [feedOutAtAttach_idle, ← hsta, hcore.station, State.setStation_station_id]
    · exact hcore
    · intro pl hpl
      rw [hused, List.mem_map] at hpl
      obtain ⟨j, hj, rfl⟩ := hpl
      rw [hout, ← Bool.not_eq_true, holdsRunOut_iff]
      rintro ⟨b, hb, hr⟩
      exact h ⟨j, b, mem_positions.mp hj, hb, hr⟩

/-! ## The request (R36) -/

theorem foreignBobbin_closer {c : RopeLot} {s : State} :
    foreignBobbin staC0 (.rope c) s = true ↔
      ∃ (j : Pos) (b : Bobbin), s.bobbinAt (.closer j) = some b ∧ (b.lot ≠ some c.strandLot ∨ b.dir = some c.dir) := by
  have hp : ∀ j : Pos, j ∈ allPositions := by decide
  have hforeign (pl : Place) : (match s.bobbinAt pl with
      | some x => x.lot != some (Build.rope c).strandLot || (staC0 == staC0 && x.dir == (Build.rope c).ropeDir)
      | none => false) = true ↔ ∃ b, s.bobbinAt pl = some b ∧ (b.lot ≠ some c.strandLot ∨ b.dir = some c.dir) := by
    cases s.bobbinAt pl <;> simp [Build.strandLot, Build.ropeDir]
  unfold foreignBobbin
  rw [List.any_eq_true, show placesOf staC0 = allPositions.map .closer from rfl]
  constructor
  · rintro ⟨pl, hpl, h⟩
    obtain ⟨j, -, rfl⟩ := List.mem_map.mp hpl
    exact ⟨j, (hforeign _).mp h⟩
  · rintro ⟨j, h⟩
    exact ⟨_, List.mem_map_of_mem (hp j), (hforeign _).mpr h⟩

/-- A ROPE lot's attach is refused while K0 is not IDLE, and for a bobbin it cannot take over. -/
theorem serveLotAttach_closer {n : BitVec 16} {k : Slot} {l : Lot} {c : RopeLot} {s : State}
    (hs : (s.station staC0).state = .idle) (hl : HasLot s k l) (hn : l.number = n.toNat)
    (hst : l.state = .ready ∨ l.state = .active) (hc : l.build = .rope c) :
    serveLotAttach (staByte staC0) n s =
      if (s.station staK0).state ≠ .idle then refuse .wrongState s
      else if foreignBobbin staC0 (.rope c) s then refuse .wrongLot s else answerOk (attachLot staC0 l s) := by
  rw [serveLotAttach_eq, if_neg (not_not.mpr hs), lot?_of_hasLot hl hn]
  dsimp only
  rw [if_neg (fun h => hst.elim h.1 h.2), hc,
    show (Build.rope c).fits (kindOf staC0) = true from rfl, if_neg (by simp)]
  simp only [ne_eq, true_and]

theorem pairAttached_noticed (k : Slot) (l : Lot) (r : Station) (s : State) :
    Noticed s ((pairAttached k l s).setStation staC0 r) := .of_ports rfl rfl

theorem Arrived.pairAttached {s a : State} (h : Arrived s a) (k : Slot) (l : Lot) :
    pairAttached k l a = { Laws.pairAttached k l s with ports := a.ports, queues := a.queues } := by
  rw [h]
  rfl

/-- What notices beside the attach of the pair leave. -/
theorem pairAttached_frame {k : Slot} {l : Lot} {s u : State} {ps : Vector PortUnit 4} {qs : Vector (List Entry) 4}
    {r : Station} (h : NoticeFrame (State.setStation { pairAttached k l s with ports := ps, queues := qs } staC0 r) u) :
    u = { s with
      stations := u.stations, twists := u.twists, ports := u.ports, queues := u.queues, lots := u.lots
      coiler := { s.coiler with wheelTally := ⟨0, 0⟩, unassigned := ⟨0, 0⟩ }
      closerShort := ⟨0, 0⟩
      meter := { stall := false, stallDist := 0, slipOpen := false, winCap := 0, winWheel := 0, lastSlip := none } } ∧
      u.twists = s.twists.set 4 { s.twist 4 with acc := ⟨0, 0⟩ } := by
  unfold pairAttached State.setStation at h
  constructor <;> rw [h.1]

end Sys2Proof.Laws

namespace Sys2Proof.Proofs

open Sys2Proof.Machine Sys2Proof.Safety Sys2Proof.Laws

/-- Settles O32: the attach is `attachLot_pair`, read in the state that the frame's arrival leaves. -/
theorem attachOfThePair : Obligations.AttachOfThePair := by
  intro p n k l c s hL hS hidle hcz hl hn hst hc
  have harr : Arrived s (validArrival p s) := validArrival_arrived p s
  have answers {code : Code} {u : State} (h : serveLotAttach (staByte staC0) n (validArrival p s) = (u, code, []))
      (hu : Noticed (validArrival p s) u) : Answers p 0x1A code [] (.lotAttach p (staByte staC0) n) s u :=
    answers_of_steered (r := .lotAttach (staByte staC0) n) hL hS rfl rfl rfl h hu
  have hla : HasLot (validArrival p s) k l := harr.hasLot hl
  have hserve := serveLotAttach_closer (s := validArrival p s) (by rw [harr.station, hidle]) hla hn hst hc
  have hforeign := foreignBobbin_closer (c := c) (s := validArrival p s)
  simp only [harr.bobbinAt] at hforeign
  rw [harr.station] at hserve
  refine ⟨fun h => answers (hserve.trans (if_pos h)) (.refl _), fun hk => ⟨fun hf => ?_, fun hf => ?_⟩⟩
  · rw [if_neg (not_not.mpr hk), if_pos (hforeign.mpr hf)] at hserve
    exact answers hserve (.refl _)
  · rw [if_neg (not_not.mpr hk), if_neg] at hserve
    · obtain ⟨r, hframe, hout, hin⟩ := attachLot_pair hla hst hc (by rw [harr.station, hcz])
      have hrun : closerRunOut c (validArrival p s) ↔ closerRunOut c s := by
        unfold closerRunOut
        simp only [harr.bobbinAt]
      have hnoted : Noticed (validArrival p s) (attachLot staC0 l (validArrival p s)) :=
        (pairAttached_noticed ..).trans (.of_notice hframe)
      rw [hrun, harr.station] at hout hin
      rw [harr.pairAttached] at hframe
      rw [hn] at hout hin
      have hother (i : Sta) (hi : i ≠ staC0) : (attachLot staC0 l (validArrival p s)).station i =
          (pairAttached k l s).station i := (hframe.station i).trans (State.setStation_station_ne _ _ _ _ hi)
      have hc0 : (attachLot staC0 l (validArrival p s)).station staC0 = r :=
        (hframe.station _).trans (State.setStation_station_self ..)
      obtain ⟨hrest, htwists⟩ := pairAttached_frame hframe
      refine ⟨_, answers hserve hnoted, hrest, hframe.lots, htwists, ?_, fun i hi hi' => ?_,
        fun h => hc0.trans (hout h), fun h => ?_⟩
      · rw [hother _ (by decide), ← hn]
        exact State.setStation_station_self ..
      · rw [hother i hi]
        exact (State.setStation_station_ne _ _ _ _ hi').trans (State.setStation_station_ne _ _ _ _ hi)
      · exact hc0.trans (hin fun ⟨j, b, hj, hb, hr⟩ => h j b hj hb hr)
    · rw [hforeign]
      rintro ⟨j, b, hb, h⟩
      exact h.elim (fun h => h (hf j b hb).1) (hf j b hb).2

end Sys2Proof.Proofs
end

section
/-! ROW_REPLY (O44). -/

namespace Sys2Proof.Laws

open Sys2Proof.Machine Sys2Proof.Safety

/-! ## A cause raised on the stations of a lot (R28, R44) -/

theorem or_twoPow_of_hasCause {x : BitSet 12} {c : Cause} (h : hasCause x c = true) : x ||| BitVec.twoPow 12 c.idx = x := by
  refine BitVec.eq_of_getLsbD_eq fun j _ => ?_
  rw [BitVec.getLsbD_or, BitVec.getLsbD_twoPow]
  by_cases e : j = c.idx
  · subst e
    rw [show x.getLsbD c.idx = true from h, Bool.true_or]
  · simp [Ne.symm e]

/-- A station's record after the raise of an admissible cause but LAY_SEVERE (R2, R5, R6). -/
def raisedOn (i : Sta) (c : Cause) (r : Station) : Station :=
  { r with
    causes := r.causes ||| BitVec.twoPow 12 c.idx
    state := if hasCause r.causes c then r.state else afterRaise i r.state }

theorem raisedOn_has (i : Sta) (c : Cause) (r : Station) : hasCause (raisedOn i c r).causes c = true := by
  refine (hasCause_add r.causes c c).trans ?_
  simp

theorem raiseCause_record {i : Sta} {c : Cause} (ha : c.admissible (kindOf i) = true) (hc : c ≠ .laySevere) (s : State) :
    (raiseCause i c s).station i = raisedOn i c (s.station i) := by
  unfold raisedOn
  cases h : hasCause (s.station i).causes c with
  | true => rw [raiseCause_idle i c s (.inr h), or_twoPow_of_hasCause h]; rfl
  | false => rw [raiseCause_station, raiseOne_station i c s ha h, if_neg hc]; rfl

/-- Of several stations on which a cause is raised each takes it once, where K0 never takes it. -/
theorem foldl_raiseCause_station {set : BitSet 8} {c : Cause} {i : Sta} (ha : c.admissible (kindOf i) = true)
    (hK : c.admissible .coiler = false) (hc : c ≠ .laySevere) (xs : List Sta) (hnd : xs.Nodup) : ∀ s : State,
    ((xs.foldl (fun s j => if set.has j.val then raiseCause j c s else s) s).station i) =
      if i ∈ xs ∧ set.has i.val = true then raisedOn i c (s.station i) else s.station i := by
  induction xs with
  | nil => exact fun s => (if_neg fun h => by cases h.1).symm
  | cons j xs ih =>
    intro s
    obtain ⟨hj, hnd⟩ := List.nodup_cons.mp hnd
    rw [List.foldl_cons, ih hnd]
    by_cases hij : i = j
    · subst hij
      rw [if_neg fun h => hj h.1]
      by_cases hset : set.has i.val = true
      · rw [if_pos hset, if_pos ⟨List.mem_cons_self, hset⟩, raiseCause_record ha hc]
      · rw [if_neg hset, if_neg fun h => hset h.2]
    · have hkeep : (if set.has j.val then raiseCause j c s else s).station i = s.station i := by
        split
        · by_cases hjK : j = staK0
          · rw [raiseCause_idle j c s (.inl (by rw [hjK]; exact hK))]
          · exact raiseCause_station_ne _ _ _ _ hij (.inr hjK)
        · rfl
      rw [hkeep]
      simp [hij]

/-- A cause that K0 never takes, raised on every station of a set. -/
theorem raiseOnAll_station {set : BitSet 8} {c : Cause} {i : Sta} (ha : c.admissible (kindOf i) = true)
    (hK : c.admissible .coiler = false) (hc : c ≠ .laySevere) (hset : set.getLsbD i.val = true) (s : State) :
    (raiseOnAll set c s).station i = raisedOn i c (s.station i) :=
  (foldl_raiseCause_station ha hK hc allStations (by decide) s).trans (if_pos ⟨mem_allStations i, hset⟩)

/-! ## Records written in another order -/

theorem writeStation_setLot (i : Sta) (r : Station) (s : State) (k : Slot) (o : Option Lot) :
    writeStation i r (s.setLot k o) = (writeStation i r s).setLot k o := by
  have h : (s.setLot k o).setStation i r = (s.setStation i r).setLot k o := rfl
  unfold writeStation
  rw [State.setLot_station, h, raise_setLot]
  split <;> rfl

theorem writeStation_setLoom (i : Sta) (r : Station) (s : State) (m : Loom) (q : LoomPos) :
    writeStation i r (s.setLoom m q) = (writeStation i r s).setLoom m q := by
  have h : (s.setLoom m q).setStation i r = (s.setStation i r).setLoom m q := rfl
  unfold writeStation
  rw [State.setLoom_station, h, raise_setLoom]
  split <;> rfl

theorem writeStation_loom (i : Sta) (r : Station) (s : State) (m : Loom) : (writeStation i r s).loom m = s.loom m :=
  (writeStation_frame ..).loom m

/-! ## The answer of a reply (R120) -/

theorem replyAnswer_eq (m : Loom) (d : Directive) (o : Option RowOrder) (s : State) :
    replyAnswer m d o s =
      (s.setLoom m { s.loom m with lastAnswer := some (d, o) }, .ok, rowAnswerBytes d o) := rfl

theorem rowAnswerBytes_order (d : Directive) (o : RowOrder) :
    rowAnswerBytes d (some o) =
      [d.code, 1] ++ bytesOf 2 o.panel ++ bytesOf 3 o.row ++ bytesOf 1 o.first ++ bytesOf 1 o.last := rfl

/-- A reply with no row: its answer in the state `u`. -/
theorem replyAnswer_none {m : Loom} {d : Directive} {s u : State} {q : LoomPos} (hs : s = u) (hq : u.loom m = q) :
    replyAnswer m d none s =
      (u.setLoom m { q with lastAnswer := some (d, none) }, .ok, [d.code, 0, 0, 0, 0, 0, 0, 0, 0]) := by
  subst hs hq
  rfl

theorem setLoom_noticed (m : Loom) (q : LoomPos) (s : State) : Noticed s (s.setLoom m q) := .of_ports rfl rfl
theorem setLot_noticed (k : Slot) (o : Option Lot) (s : State) : Noticed s (s.setLot k o) := .of_ports rfl rfl

/-! ## ACCEPT (R120) -/

theorem acceptRow_ongoing {m : Loom} {s : State} (h : (s.loom m).endPending = false) :
    acceptRow m s =
      if (s.station (loomSta m)).causes = 0 then
        (let u := openRow m (moveTo (loomSta m) .knotting s)
         replyAnswer m .next (some (u.loom m).order) u)
      else replyAnswer m .stop none (moveTo (loomSta m) .halted s) := by
  unfold acceptRow
  rw [h] <;> rfl

theorem acceptRow_ending {m : Loom} {s : State} (h : (s.loom m).endPending = true) :
    acceptRow m s =
      (let u := finishPanel m s
       if (u.station (loomSta m)).causes = 0 then
        (let r := attemptPanel m (moveTo (loomSta m) .knotting u)
         replyAnswer m .panelEnd (if r.2 then some (r.1.loom m).order else none) r.1)
       else replyAnswer m .panelEnd none (moveTo (loomSta m) .halted u)) := by
  unfold acceptRow
  rw [h] <;> rfl

/-- The row goes on: it is opened, and ordered again. -/
theorem acceptRow_next {m : Loom} {s : State} (h : (s.loom m).endPending = false)
    (hc : (s.station (loomSta m)).causes = 0) :
    acceptRow m s =
      ((writeStation (loomSta m) { s.station (loomSta m) with state := .knotting } s).setLoom m
        { s.loom m with openRow := true, lastAnswer := some (.next, some (s.loom m).order) }, .ok,
        rowAnswerBytes .next (some (s.loom m).order)) := by
  rw [acceptRow_ongoing h, if_pos hc]
  dsimp only
  unfold openRow modLoom
  rw [replyAnswer_eq, moveTo_eq_writeStation, writeStation_loom, State.setLoom_loom_self, setLoom_setLoom]
  rfl

theorem acceptRow_stop {m : Loom} {s : State} (h : (s.loom m).endPending = false)
    (hc : (s.station (loomSta m)).causes ≠ 0) :
    acceptRow m s =
      ((writeStation (loomSta m) { s.station (loomSta m) with state := .halted } s).setLoom m
        { s.loom m with lastAnswer := some (.stop, none) }, .ok, [2, 0, 0, 0, 0, 0, 0, 0, 0]) := by
  rw [acceptRow_ongoing h, if_neg hc]
  exact replyAnswer_none (moveTo_eq_writeStation ..) (writeStation_loom ..)

/-! ## A panel done (R110) -/

/-- A position whose panel has ended. -/
def panelEnded (q : LoomPos) : LoomPos := { q with inPanel := false, endPending := false }

/-- A panel ended with its notice, before its count. -/
def panelDone (m : Loom) (s : State) : State :=
  raise .row (.station (loomSta m)) 0x600 (s.setLoom m (panelEnded (s.loom m)))

theorem panelDone_station (m : Loom) (s : State) (i : Sta) : (panelDone m s).station i = s.station i :=
  (raise_frame ..).station i

theorem panelDone_loom (m : Loom) (s : State) : (panelDone m s).loom m = panelEnded (s.loom m) :=
  ((raise_frame ..).loom m).trans (State.setLoom_loom_self ..)

theorem panelDone_hasLot {m : Loom} {s : State} {k : Slot} {l : Lot} (hl : HasLot s k l) : HasLot (panelDone m s) k l :=
  HasLot.congr hl (raise_frame ..).lots

theorem panelDone_noticed (m : Loom) (s : State) : Noticed s (panelDone m s) :=
  (setLoom_noticed ..).trans (.of_notice (raise_frame ..))

theorem loomLot_eq {m : Loom} {s : State} {n : Nat} (hi : (s.station (loomSta m)).lot = some n) : s.loomLot m = n := by
  unfold State.loomLot
  rw [hi]
  rfl

/-- The end of a panel is its count on the loom's lot. -/
theorem finishPanel_eq {m : Loom} {s : State} {n : Nat} (hi : (s.station (loomSta m)).lot = some n) :
    finishPanel m s = countDone n (panelDone m s) := by
  unfold finishPanel
  rw [loomLot_eq hi]
  rfl

theorem finishPanel_open {m : Loom} {s : State} {k : Slot} {l : Lot} (hl : HasLot s k l)
    (hi : (s.station (loomSta m)).lot = some l.number)
    (h : l.done + 1 ≠ l.build.ordered ∨ (l.state ≠ .active ∧ l.state ≠ .held)) :
    finishPanel m s = (panelDone m s).setLot k (some { l with done := l.done + 1 }) := by
  rw [finishPanel_eq hi, countDone_eq (panelDone_hasLot hl)]
  exact if_neg fun ⟨h1, h2⟩ => h.elim (fun h => h h2) fun h => h1.elim h.1 h.2

/-- The panel that completes its lot (R44). -/
theorem finishPanel_last {m : Loom} {s : State} {k : Slot} {l : Lot} (hl : HasLot s k l)
    (hi : (s.station (loomSta m)).lot = some l.number) (h : l.done + 1 = l.build.ordered)
    (hst : l.state = .active ∨ l.state = .held) :
    finishPanel m s =
      raiseOnAll l.stations .lotEnd (raise .lot (.lot l.number) 0x205
        ((panelDone m s).setLot k (some { l with done := l.done + 1, state := .complete }))) := by
  rw [finishPanel_eq hi, countDone_eq (panelDone_hasLot hl)]
  exact if_pos ⟨hst, h⟩

/-! ## The panel that may follow (R109, R110) -/

theorem net_eq_some {m : Loom} {s : State} {k : Slot} {l : Lot} {c : NetLot} (hl : HasLot s k l)
    (hi : (s.station (loomSta m)).lot = some l.number) (hc : l.build = .net c) : s.net m = some c := by
  unfold State.net
  rw [lotOf_eq_some hi hl]
  obtain ⟨_, _, _, _, build, _⟩ := l
  cases hc
  rfl

/-- The position at the first row of the next panel, its row opened. -/
def nextPanel (c : NetLot) (top : Nat) (q : LoomPos) : LoomPos :=
  { q with
    inPanel := true, endPending := false, segment := c.head, rowIn := 1, row := 1, first := min c.first top
    last := min c.last top, clampNoted := false, panel := min 65535 (q.panel + 1), openRow := true }

section
variable {m : Loom} {s : State} {k : Slot} {l : Lot} {c : NetLot} (hl : HasLot s k l)
  (hi : (s.station (loomSta m)).lot = some l.number) (hst : (s.station (loomSta m)).state = .knotting)
  (hz : (s.station (loomSta m)).causes = 0)
include hl hi hst hz

theorem attemptPanel_refused (h : l.build.ordered ≤ l.started ∨ l.state = .closed) :
    attemptPanel m s = (moveTo (loomSta m) .standby s, false) := by
  have hno : canStart l.number s = false := by
    rw [← Bool.not_eq_true, canStart_iff hl]
    rintro ⟨h1, h2⟩
    exact h.elim (Nat.not_le.mpr h1) h2
  unfold attemptPanel
  dsimp only
  rw [if_pos ⟨hst, hz⟩, loomLot_eq hi, hno]

theorem attemptPanel_started (hc : l.build = .net c) (hlt : l.started < c.ordered) (hcl : l.state ≠ .closed) :
    attemptPanel m s =
      ((s.setLot k (some { l with started := l.started + 1 })).setLoom m
        (nextPanel c (s.settings.needles[m] - 1) (s.loom m)), true) := by
  have hyes : canStart l.number s = true := (canStart_iff hl).mpr ⟨by rw [hc]; exact hlt, hcl⟩
  have hadd : addStart l.number s = s.setLot k (some { l with started := l.started + 1 }) := modLot_of_hasLot hl _
  have hstart : openRow m (startPanel m c s) =
      (s.setLot k (some { l with started := l.started + 1 })).setLoom m
        (nextPanel c (s.settings.needles[m] - 1) (s.loom m)) := by
    unfold startPanel openRow modLoom LoomPos.atHead State.needles
    rw [loomLot_eq hi, hadd, clampNat_zero, clampNat_zero, State.setLoom_loom_self, setLoom_setLoom]
    rfl
  unfold attemptPanel
  dsimp only
  rw [if_pos ⟨hst, hz⟩, loomLot_eq hi, hyes, net_eq_some hl hi hc]
  exact congrArg (·, true) hstart

end

theorem knotting_hasLot {m : Loom} {s : State} {k : Slot} {l : Lot} (hl : HasLot s k l) (r : Station) :
    HasLot (writeStation (loomSta m) r ((panelDone m s).setLot k (some { l with done := l.done + 1 }))) k
      { l with done := l.done + 1 } :=
  HasLot.congr (hasLot_setLot (panelDone_hasLot hl) rfl) (writeStation_frame ..).lots

/-! ## ACCEPT at the end of a panel (R110, R120) -/

section
variable {m : Loom} {s : State} {k : Slot} {l : Lot} (hq : (s.loom m).endPending = true) (hl : HasLot s k l)
  (hi : (s.station (loomSta m)).lot = some l.number)
include hq hl hi

/-- The panel leaves its lot open, and the loom stands under the causes it has. -/
theorem acceptRow_halts (hopen : l.done + 1 ≠ l.build.ordered ∨ (l.state ≠ .active ∧ l.state ≠ .held))
    (hz : (s.station (loomSta m)).causes ≠ 0) :
    acceptRow m s =
      ((writeStation (loomSta m) { s.station (loomSta m) with state := .halted }
        ((panelDone m s).setLot k (some { l with done := l.done + 1 }))).setLoom m
          { panelEnded (s.loom m) with lastAnswer := some (.panelEnd, none) }, .ok, [4, 0, 0, 0, 0, 0, 0, 0, 0]) := by
  rw [acceptRow_ending hq, finishPanel_open hl hi hopen]
  dsimp only
  rw [State.setLot_station, panelDone_station, if_neg hz]
  refine replyAnswer_none ?_ ((writeStation_loom ..).trans (panelDone_loom ..))
  rw [moveTo_eq_writeStation, State.setLot_station, panelDone_station]

/-- The panel completes its lot, and LOT_END halts the loom. -/
theorem acceptRow_completes (hlast : l.done + 1 = l.build.ordered) (hst : l.state = .active ∨ l.state = .held)
    (hset : l.stations.getLsbD (loomSta m).val = true) :
    acceptRow m s =
      ((writeStation (loomSta m)
        { s.station (loomSta m) with state := .halted, causes := (s.station (loomSta m)).causes ||| 0x100 }
        (raiseOnAll l.stations .lotEnd (raise .lot (.lot l.number) 0x205
          ((panelDone m s).setLot k (some { l with done := l.done + 1, state := .complete }))))).setLoom m
          { panelEnded (s.loom m) with lastAnswer := some (.panelEnd, none) }, .ok, [4, 0, 0, 0, 0, 0, 0, 0, 0]) := by
  have hadm : Cause.lotEnd.admissible (kindOf (loomSta m)) = true := by clear * -; revert m; decide
  have hraised := raiseOnAll_station hadm rfl (by decide) hset (raise .lot (.lot l.number) 0x205
    ((panelDone m s).setLot k (some { l with done := l.done + 1, state := .complete })))
  rw [(raise_frame ..).station, State.setLot_station, panelDone_station] at hraised
  have hloom : (raiseOnAll l.stations .lotEnd (raise .lot (.lot l.number) 0x205
      ((panelDone m s).setLot k (some { l with done := l.done + 1, state := .complete })))).loom m =
      panelEnded (s.loom m) :=
    ((raiseOnAll_move ..).loom m).trans (((raise_frame ..).loom m).trans (panelDone_loom ..))
  have hnz : (raisedOn (loomSta m) .lotEnd (s.station (loomSta m))).causes ≠ 0 := by
    intro h
    have hbit := raisedOn_has (loomSta m) .lotEnd (s.station (loomSta m))
    rw [h] at hbit
    exact absurd hbit (by decide)
  rw [acceptRow_ending hq, finishPanel_last hl hi hlast hst]
  dsimp only
  rw [hraised, if_neg hnz]
  refine replyAnswer_none ?_ ((writeStation_loom ..).trans hloom)
  rw [moveTo_eq_writeStation, hraised]
  rfl

variable (hopen : l.done + 1 ≠ l.build.ordered ∨ (l.state ≠ .active ∧ l.state ≠ .held))
  (hz : (s.station (loomSta m)).causes = 0)
include hopen hz

/-- The panel leaves its lot open, and the loom knots on where a panel starts. -/
theorem acceptRow_attempts :
    acceptRow m s =
      (let r := attemptPanel m (writeStation (loomSta m) { s.station (loomSta m) with state := .knotting }
        ((panelDone m s).setLot k (some { l with done := l.done + 1 })))
       replyAnswer m .panelEnd (if r.2 then some (r.1.loom m).order else none) r.1) := by
  rw [acceptRow_ending hq, finishPanel_open hl hi hopen]
  dsimp only
  rw [State.setLot_station, panelDone_station, if_pos hz, moveTo_eq_writeStation, State.setLot_station, panelDone_station]

variable {c : NetLot} (hc : l.build = .net c)
include hc

theorem acceptRow_rests (h : c.ordered ≤ l.started ∨ l.state = .closed) :
    acceptRow m s =
      ((writeStation (loomSta m) { s.station (loomSta m) with state := .standby }
        (writeStation (loomSta m) { s.station (loomSta m) with state := .knotting }
          ((panelDone m s).setLot k (some { l with done := l.done + 1 })))).setLoom m
          { panelEnded (s.loom m) with lastAnswer := some (.panelEnd, none) }, .ok, [4, 0, 0, 0, 0, 0, 0, 0, 0]) := by
  have hrefused := attemptPanel_refused (m := m)
    (knotting_hasLot hl { s.station (loomSta m) with state := .knotting }) (by rw [writeStation_station]; exact hi)
    (by rw [writeStation_station]) (by rw [writeStation_station]; exact hz) (by rw [hc]; exact h)
  rw [acceptRow_attempts hq hl hi hopen hz, hrefused]
  refine replyAnswer_none ?_ ((writeStation_loom ..).trans ((writeStation_loom ..).trans (panelDone_loom ..)))
  rw [moveTo_eq_writeStation, writeStation_station]

theorem acceptRow_startsPanel (hlt : l.started < c.ordered) (hcl : l.state ≠ .closed) :
    acceptRow m s =
      ((writeStation (loomSta m) { s.station (loomSta m) with state := .knotting }
        ((panelDone m s).setLot k (some { l with done := l.done + 1, started := l.started + 1 }))).setLoom m
          { nextPanel c (s.settings.needles[m] - 1) (s.loom m) with
            lastAnswer := some (.panelEnd, some (nextPanel c (s.settings.needles[m] - 1) (s.loom m)).order) }, .ok,
        rowAnswerBytes .panelEnd (some (nextPanel c (s.settings.needles[m] - 1) (s.loom m)).order)) := by
  have hstarted := attemptPanel_started (m := m)
    (knotting_hasLot hl { s.station (loomSta m) with state := .knotting }) (by rw [writeStation_station]; exact hi)
    (by rw [writeStation_station]) (by rw [writeStation_station]; exact hz) hc hlt hcl
  have hset : (writeStation (loomSta m) { s.station (loomSta m) with state := .knotting }
      ((panelDone m s).setLot k (some { l with done := l.done + 1 }))).settings = s.settings :=
    (writeStation_frame ..).settings.trans (raise_frame ..).settings
  rw [writeStation_loom, hset, ← writeStation_setLot, setLot_setLot, State.setLot_loom, panelDone_loom] at hstarted
  rw [acceptRow_attempts hq hl hi hopen hz, hstarted]
  dsimp only
  rw [if_pos rfl, replyAnswer_eq, State.setLoom_loom_self, setLoom_setLoom]
  rfl

end

/-! ## ABANDON (R121) -/

theorem abandonRow_eq {m : Loom} {s : State} {k : Slot} {l : Lot} (hl : HasLot s k l)
    (hi : (s.station (loomSta m)).lot = some l.number) :
    abandonRow m s =
      ((writeStation (loomSta m)
        { s.station (loomSta m) with state := if (s.station (loomSta m)).causes = 0 then .standby else .halted }
        (raise .row (.station (loomSta m)) 0x601
          (s.setLot k (some { l with started := l.started - 1, rejected := min 255 (l.rejected + 1) })))).setLoom m
          { panelEnded (s.loom m) with lastAnswer := some (.stop, none) }, .ok, [2, 0, 0, 0, 0, 0, 0, 0, 0]) := by
  have hreject : rejectPanel m s = (raise .row (.station (loomSta m)) 0x601
      (s.setLot k (some { l with started := l.started - 1, rejected := min 255 (l.rejected + 1) }))).setLoom m
        (panelEnded (s.loom m)) := by
    rw [rejectPanel_eq hl hi, ← raise_setLoom]
    rfl
  unfold abandonRow
  dsimp only
  rw [hreject, moveTo_eq_writeStation, State.setLoom_station, (raise_frame ..).station, State.setLot_station,
    writeStation_setLoom, replyAnswer_eq, State.setLoom_loom_self, setLoom_setLoom]
  rfl

/-! ## The request (R120, R121) -/

theorem serveRowReply_loom {m : Loom} {v : Byte} (hv : v = 1 ∨ v = 2) (s : State) :
    serveRowReply (staByte (loomSta m)) v s =
      if (s.station (loomSta m)).state ≠ .rowHold then refuse .wrongState s
      else if v = 1 then acceptRow m s else abandonRow m s := by
  unfold serveRowReply
  rw [staOf_loomSta]
  dsimp only
  rw [if_neg (fun h => hv.elim h.1 h.2)]

theorem serveRowReply_elsewhere {i : Sta} (h0 : i ≠ loomSta 0) (h1 : i ≠ loomSta 1) (v : Byte) (s : State) :
    serveRowReply (staByte i) v s = refuse .outOfRange s := by
  have hno : (staOf (staByte i)).bind loomOf = none := by clear * - h0 h1; revert i; decide
  unfold serveRowReply
  rw [hno]

/-- The notices beside a reply's state change. -/
theorem replied_noticed {m : Loom} {s u : State} (h : Noticed s u) (r : Station) (q : LoomPos) :
    Noticed s ((writeStation (loomSta m) r u).setLoom m q) :=
  (h.trans (writeStation_noticed ..)).trans (setLoom_noticed ..)

theorem panelCounted_noticed (m : Loom) (s : State) (k : Slot) (o : Option Lot) :
    Noticed s ((panelDone m s).setLot k o) := (panelDone_noticed ..).trans (setLot_noticed ..)

end Sys2Proof.Laws

namespace Sys2Proof.Proofs

open Sys2Proof.Machine Sys2Proof.Safety Sys2Proof.Laws

/-- Settles O44: each branch is the equation of `acceptRow` or `abandonRow` for it, read in the state that the frame's
arrival leaves. -/
theorem rowRepliesEndTheHold : Obligations.RowRepliesEndTheHold := by
  have accept {p : Port} {i : Sta} {s u : State} {code : Code} {payload : List Byte} (hL : Listens p s)
      (hS : Steers p i s) (h : serveRowReply (staByte i) 1 (validArrival p s) = (u, code, payload))
      (hu : Noticed (validArrival p s) u) : Answers p 0x43 code payload (.rowReplyAccept p (staByte i)) s u :=
    answers_of_steered (r := .rowReply (staByte i) 1) hL hS rfl rfl rfl h hu
  have abandon {p : Port} {i : Sta} {s u : State} {code : Code} {payload : List Byte} (hL : Listens p s)
      (hS : Steers p i s) (h : serveRowReply (staByte i) 2 (validArrival p s) = (u, code, payload))
      (hu : Noticed (validArrival p s) u) : Answers p 0x43 code payload (.rowReplyAbandon p (staByte i)) s u :=
    answers_of_steered (r := .rowReply (staByte i) 2) hL hS rfl rfl rfl h hu
  refine ⟨fun p i s hL hS h0 h1 => ?_, fun p m s hL hS => ?_⟩
  · exact ⟨accept hL hS (serveRowReply_elsewhere h0 h1 ..) (.refl _),
      abandon hL hS (serveRowReply_elsewhere h0 h1 ..) (.refl _)⟩
  intro i r q a
  have harr : Arrived s a := validArrival_arrived p s
  have hr : a.station (loomSta m) = r := harr.station _
  have hq : a.loom m = q := harr.loom m
  have hyes := serveRowReply_loom (m := m) (.inl rfl) a
  have hno := serveRowReply_loom (m := m) (.inr rfl) a
  rw [hr, if_pos rfl] at hyes
  rw [hr, if_neg (show (2 : Byte) ≠ 1 by decide)] at hno
  refine ⟨fun h => ?_, fun hst he hz => ?_, fun hst he hz => ?_, fun k l c hst he hl hi hc => ?_,
    fun k l hst hl hi => ?_⟩
  · exact ⟨accept hL hS (hyes.trans (if_pos h)) (.refl _), abandon hL hS (hno.trans (if_pos h)) (.refl _)⟩
  · rw [if_neg (not_not.mpr hst), acceptRow_next (hq ▸ he) (hr ▸ hz), hr, hq] at hyes
    exact accept hL hS hyes (replied_noticed (.refl a) ..)
  · rw [if_neg (not_not.mpr hst), acceptRow_stop (hq ▸ he) (hr ▸ hz), hr, hq] at hyes
    exact accept hL hS hyes (replied_noticed (.refl a) ..)
  · have hea : (a.loom m).endPending = true := hq ▸ he
    have hla : HasLot a k l := harr.hasLot hl
    have hia : (a.station (loomSta m)).lot = some l.number := hr ▸ hi
    have hordered : l.build.ordered = c.ordered := by rw [hc]; rfl
    have hdone : panelDone m a = raise .row (.station i) 0x600 (a.setLoom m (panelEnded q)) := by
      unfold panelDone
      rw [hq]
    rw [if_neg (not_not.mpr hst)] at hyes
    refine ⟨fun hopen => ⟨fun hz => ?_, fun hz h => ?_, fun hz hlt hcl => ?_⟩, fun hlast hst hset => ?_⟩
    · rw [acceptRow_halts hea hla hia (hordered ▸ hopen) (hr ▸ hz), hr, hq] at hyes
      exact hdone ▸ accept hL hS hyes (replied_noticed (panelCounted_noticed ..) ..)
    · rw [acceptRow_rests hea hla hia (hordered ▸ hopen) (hr ▸ hz) hc h, hr, hq] at hyes
      exact hdone ▸ accept hL hS hyes (replied_noticed ((panelCounted_noticed ..).trans (writeStation_noticed ..)) ..)
    · rw [acceptRow_startsPanel hea hla hia (hordered ▸ hopen) (hr ▸ hz) hc hlt hcl, hr, hq, harr.settings,
        rowAnswerBytes_order] at hyes
      exact hdone ▸ accept hL hS hyes (replied_noticed (panelCounted_noticed ..) ..)
    · rw [acceptRow_completes hea hla hia (hordered ▸ hlast) hst hset, hr, hq] at hyes
      exact hdone ▸ accept hL hS hyes (replied_noticed
        (((panelCounted_noticed ..).trans (.of_notice (raise_frame ..))).trans (raiseOnAll_noticed ..)) ..)
  · rw [if_neg (not_not.mpr hst), abandonRow_eq (harr.hasLot hl) (hr ▸ hi), hr, hq] at hno
    exact abandon hL hS hno (replied_noticed (raise_setLot_noticed ..) ..)

end Sys2Proof.Proofs
end

section
/-! CUT_DONE (O46). -/

namespace Sys2Proof.Laws

open Sys2Proof.Machine Sys2Proof.Safety

/-! ## The ROPE lot under a change of the lot table -/

theorem lot?_setLot_ne {s : State} {k : Slot} {l l' : Lot} (hl : HasLot s k l) (hn : l'.number = l.number) {n : Nat}
    (h : n ≠ l.number) : (s.setLot k (some l')).lot? n = s.lot? n := by
  unfold State.lot?
  rw [slotOf_setLot hl.2 hn]
  cases hs : s.slotOf n with
  | none => rfl
  | some j =>
    obtain ⟨l₂, hl₂, hn₂⟩ := slotOf_eq_some hs
    refine setLot_lots_ne _ _ _ _ fun e => h ?_
    rw [e, hl.2] at hl₂
    cases hl₂
    exact hn₂.symm

theorem rope_of_lotOf {s : State} {r : RopeLot} (h : s.rope = some r) :
    ∃ l, s.lotOf staC0 = some l ∧ l.build = .rope r := by
  unfold State.rope at h
  split at h
  · next hl =>
    cases h
    exact ⟨_, hl, rfl⟩
  · cases h

/-- C0's ROPE lot stays the same under a rewrite of a record that keeps its construction. -/
theorem rope_congr_setLot {s t : State} {k : Slot} {l l' : Lot} {r : RopeLot} (hl : HasLot s k l)
    (hn : l'.number = l.number) (hb : l'.build = l.build) (hlots : t.lots = s.lots.set k (some l'))
    (hi : (t.station staC0).lot = (s.station staC0).lot) (hr : s.rope = some r) : t.rope = some r := by
  have hlots : t.lots = (s.setLot k (some l')).lots := hlots
  obtain ⟨l₀, hl₀, hb₀⟩ := rope_of_lotOf hr
  obtain ⟨n, hn₀, hl₀⟩ := Option.bind_eq_some_iff.mp hl₀
  by_cases h : n = l.number
  · subst h
    rw [hasLot_lot? hl] at hl₀
    cases hl₀
    refine rope_eq_some (lotOf_eq_some ?_ (HasLot.congr (hasLot_setLot hl hn) hlots)) (hb.trans hb₀)
    rw [hi, hn₀, hn]
  · refine rope_eq_some (l := l₀) ?_ hb₀
    unfold State.lotOf
    rw [hi, hn₀, Option.bind_some, lot?_congr hlots, lot?_setLot_ne hl hn h, hl₀]

theorem ropeOf_eq_some {s : State} {k : Slot} {l : Lot} {r : RopeLot} (hl : HasLot s k l) (hb : l.build = .rope r) :
    s.ropeOf l.number = some r := by
  unfold State.ropeOf
  rw [hasLot_lot? hl]
  obtain ⟨_, _, _, _, build, _⟩ := l
  cases hb
  rfl

/-! ## A coil start (R140) -/

/-- The coil with which lot `l` starts, while C0 and K0 hold the construction `r` (R98, R139, R140). -/
def seededCoil (l : Lot) (r : RopeLot) (s : State) : Coil :=
  (s.seedIds r).foldl Coil.addBobbin
    (Coil.fresh l.number (l.started + 1) (if s.meter.stall then .capstan else .wheel) s.worksClock)

theorem startCoil_seeded {s : State} {id : ArborId} {k : Slot} {l : Lot} {r : RopeLot} (hl : HasLot s k l)
    (hr : s.rope = some r) :
    startCoil id l.number s =
      { s with
        lots := s.lots.set k (some { l with started := l.started + 1 })
        coiler := s.coiler.setArbor id (.busy .winding (seededCoil l r s))
        meter := if s.meter.stall then s.meter else { s.meter with slipOpen := true, winCap := 0, winWheel := 0 } } := by
  have hadd : addStart l.number s = s.setLot k (some { l with started := l.started + 1 }) := modLot_of_hasLot hl _
  have hlot : (s.setLot k (some { l with started := l.started + 1 })).lot? l.number =
      some { l with started := l.started + 1 } :=
    hasLot_lot? (hasLot_setLot (l' := { l with started := l.started + 1 }) hl rfl)
  have hrope : (s.setLot k (some { l with started := l.started + 1 })).rope = some r :=
    rope_congr_setLot (l' := { l with started := l.started + 1 }) hl rfl rfl rfl rfl hr
  unfold startCoil
  rw [hadd]
  dsimp only
  rw [hlot, hrope]
  unfold seededCoil
  rw [State.setArbor_meter, State.setLot_meter]
  cases s.meter.stall <;> rfl

/-! ## Steps 1 to 4 of R147 -/

/-- The coil whose cut is done, before its tag. -/
def cutCoil (r : RopeLot) (c : Coil) (s : State) : Coil :=
  { c with
    length := ⟨c.length.mm, 0⟩
    overrun := if c.remnant then 0 else c.length.mm - r.coilLen * 1000
    cut := some s.worksClock }

/-- The cut coil is PACKING, and the slip window is discarded. -/
def coilCut (id : ArborId) (r : RopeLot) (c : Coil) (s : State) : State :=
  discardSlip (s.setArbor id (.busy .packing (cutCoil r c s)))

theorem coilCut_hasLot {id : ArborId} {k : Slot} {l : Lot} {r : RopeLot} {c : Coil} {s : State} (hl : HasLot s k l) :
    HasLot (coilCut id r c s) k l := by
  have hlots : (coilCut id r c s).lots = s.lots := rfl
  exact HasLot.congr hl hlots

/-- The cut coil counted on its lot, and the causes of the cut point gone from C0. -/
def cutCounted (id : ArborId) (k : Slot) (l : Lot) (r : RopeLot) (c : Coil) (s : State) : State :=
  let t := counted k l c.length.mm (coilCut id r c s)
  t.setStation staC0 { t.station staC0 with causes := (t.station staC0).causes &&& 0x9FF }

/-- Step 5 of R147: the next coil, or the LOT_END of a lot that has ended. -/
def coilFollows (id : ArborId) (n : Nat) (s : State) : State :=
  if canStart n s && (s.arbor id.other).isFree then startCoil id.other n s
  else match s.lot? n with
    | some l => if l.state = .complete ∨ l.state = .closed then raiseCause staC0 .lotEnd s else s
    | none => s

theorem without_cutCauses (x : BitSet 12) : without [.cutStop, .arborBusy] x = x &&& 0x9FF := by
  simp only [without, List.foldl, BitSet.del, BitVec.and_assoc]
  rfl

theorem dropCutCauses_eq (s : State) :
    dropCause staC0 .arborBusy (dropCause staC0 .cutStop s) =
      s.setStation staC0 { s.station staC0 with causes := (s.station staC0).causes &&& 0x9FF } := by
  have h := dropAll_eq (i := staC0) [.cutStop, .arborBusy] s fun h => absurd h (by decide)
  rw [without_cutCauses] at h
  exact h

theorem cutReport_eq {id : ArborId} {k : Slot} {l : Lot} {r : RopeLot} {c : Coil} {s : State} (hl : HasLot s k l)
    (hc : c.lot = l.number) (hb : l.build = .rope r) :
    cutReport id c s = settle staC0 (tagOnPacking id (coilFollows id l.number (cutCounted id k l r c s))) := by
  have hcount := countDone_addProduced (coilCut_hasLot (id := id) (r := r) (c := c) hl) c.length.mm
  unfold cutReport coilFollows cutCounted
  rw [← hcount]
  unfold coilCut cutCoil RopeLot.cutMm
  rw [hc, ropeOf_eq_some hl hb]
  dsimp only
  rw [dropCutCauses_eq] <;> rfl

/-! ## The lot's record once the coil is counted (R44) -/

/-- A lot's record once a coil of `mm` is counted on it. -/
def countedLot (l : Lot) (mm : Nat) : Lot :=
  { l with
    produced := min 4294967295 (l.produced + mm), done := l.done + 1
    state := if (l.state = .active ∨ l.state = .held) ∧ l.done + 1 = l.build.ordered then .complete else l.state }

theorem countedLot_closed {l : Lot} {mm : Nat} : (countedLot l mm).state = .closed ↔ l.state = .closed := by
  unfold countedLot
  dsimp only
  split
  · next h =>
    refine ⟨fun e => (by cases e), fun e => ?_⟩
    rw [e] at h
    rcases h.1 with h | h <;> cases h
  · exact .rfl

theorem counted_record (k : Slot) (l : Lot) (mm : Nat) (s : State) :
    (counted k l mm s).lots = s.lots.set k (some (countedLot l mm)) := by
  unfold counted countedLot
  extract_lets l'
  split
  · rw [(raiseOnAll_move ..).lots, (raise_frame ..).lots]
    rfl
  · rfl

section
variable {id : ArborId} {k : Slot} {l : Lot} {r : RopeLot} {c : Coil} {s : State}

theorem cutCounted_lots : (cutCounted id k l r c s).lots = s.lots.set k (some (countedLot l c.length.mm)) :=
  counted_record k l c.length.mm (coilCut id r c s)

theorem cutCounted_hasLot (hl : HasLot s k l) : HasLot (cutCounted id k l r c s) k (countedLot l c.length.mm) :=
  HasLot.congr (s := s.setLot k (some (countedLot l c.length.mm))) (hasLot_setLot hl rfl) cutCounted_lots

theorem cutCounted_frame (hl : HasLot s k l) : LotFrame (coilCut id r c s) (cutCounted id k l r c s) :=
  (counted_frame (coilCut_hasLot hl) _).trans (.ofMove (setStation_move _ _ _ rfl rfl))

theorem cutCounted_closer : ((cutCounted id k l r c s).station staC0) =
    { (counted k l c.length.mm (coilCut id r c s)).station staC0 with
      causes := ((counted k l c.length.mm (coilCut id r c s)).station staC0).causes &&& 0x9FF } :=
  State.setStation_station_self ..

theorem cutCounted_open_closer (h : l.done + 1 ≠ l.build.ordered ∨ (l.state ≠ .active ∧ l.state ≠ .held)) :
    (cutCounted id k l r c s).station staC0 =
      { s.station staC0 with causes := (s.station staC0).causes &&& 0x9FF } := by
  rw [cutCounted_closer, counted_open h]
  rfl

theorem cutCounted_open_station (h : l.done + 1 ≠ l.build.ordered ∨ (l.state ≠ .active ∧ l.state ≠ .held))
    {i : Sta} (hi : i ≠ staC0) : (cutCounted id k l r c s).station i = s.station i := by
  unfold cutCounted
  dsimp only
  rw [State.setStation_station_ne _ _ _ _ hi, counted_open h]
  rfl

end

/-! ## What follows the cut -/

section
variable {id : ArborId} {k : Slot} {l : Lot} {r : RopeLot} {t : State} (hl : HasLot t k l)
include hl

theorem coilFollows_starts (hr : t.rope = some r) (hfree : t.arbor id.other = .free) (hlt : l.started < l.build.ordered)
    (hcl : l.state ≠ .closed) :
    coilFollows id l.number t =
      { t with
        lots := t.lots.set k (some { l with started := l.started + 1 })
        coiler := t.coiler.setArbor id.other (.busy .winding (seededCoil l r t))
        meter := if t.meter.stall then t.meter else { t.meter with slipOpen := true, winCap := 0, winWheel := 0 } } := by
  unfold coilFollows
  rw [(canStart_iff hl).mpr ⟨hlt, hcl⟩, hfree]
  exact startCoil_seeded hl hr

theorem coilFollows_refused (h : l.build.ordered ≤ l.started ∨ l.state = .closed) :
    coilFollows id l.number t =
      if l.state = .complete ∨ l.state = .closed then raiseCause staC0 .lotEnd t else t := by
  have hno : canStart l.number t = false := by
    rw [← Bool.not_eq_true, canStart_iff hl]
    rintro ⟨h1, h2⟩
    exact h.elim (Nat.not_le.mpr h1) h2
  unfold coilFollows
  rw [hno, hasLot_lot? hl]
  rfl

end

/-- `t` is `s` with the coil `d` PACKING on an arbor, no tag or record moved, up to what the end of a cut may change. -/
structure CoilCut (id : ArborId) (d : Coil) (s t : State) : Prop where
  frame : t = { s with
    stations := t.stations, twists := t.twists, lots := t.lots, coiler := t.coiler, meter := t.meter
    ports := t.ports, queues := t.queues }
  noticed : Noticed s t
  packing : t.arbor id = .busy .packing d
  tags : t.coiler.tags = s.coiler.tags
  outbound : t.coiler.outbound = s.coiler.outbound

/-- The counting of the cut coil, and any moves of stations after it. -/
theorem CoilCut.of_lot {id : ArborId} {r : RopeLot} {c : Coil} {s t : State} (h : LotFrame (coilCut id r c s) t) :
    CoilCut id (cutCoil r c s) s t := by
  have hcoiler : t.coiler = s.coiler.setArbor id (.busy .packing (cutCoil r c s)) := MoveFrame.coiler h
  refine ⟨?_, (Noticed.of_ports (a := s) (u := coilCut id r c s) rfl rfl).trans (.of_lot h), ?_, ?_, ?_⟩
  · rw [h.1]
    rfl
  · unfold State.arbor
    rw [hcoiler]
    exact Coiler.arbor_setArbor ..
  · rw [hcoiler]
    cases id <;> rfl
  · rw [hcoiler]
    cases id <;> rfl

/-- A coil that starts on the other arbor. -/
theorem CoilCut.starts {id : ArborId} {d : Coil} {s t : State} (h : CoilCut id d s t) (ls : Vector (Option Lot) 16)
    (x : Arbor) (m : Meter) : CoilCut id d s { t with lots := ls, coiler := t.coiler.setArbor id.other x, meter := m } := by
  obtain ⟨hframe, hnoted, hpack, htags, hout⟩ := h
  refine ⟨?_, hnoted.trans (.of_ports rfl rfl), ?_, ?_, ?_⟩
  · rw [hframe]
  · rw [← hpack]
    cases id <;> rfl
  · rw [← htags]
    cases id <;> rfl
  · rw [← hout]
    cases id <;> rfl

/-- The next coil on the other arbor, its start counted (R140). -/
def nextCoil (id : ArborId) (k : Slot) (l : Lot) (r : RopeLot) (c : Coil) (s : State) : State :=
  let t := cutCounted id k l r c s
  { t with
    lots := s.lots.set k (some { countedLot l c.length.mm with started := l.started + 1 })
    coiler := t.coiler.setArbor id.other (.busy .winding (seededCoil l r s))
    meter := { s.meter with slipOpen := !s.meter.stall, winCap := 0, winWheel := 0 } }

section
variable {id : ArborId} {k : Slot} {l : Lot} {r : RopeLot} {c : Coil} {s : State} (hl : HasLot s k l)
include hl

theorem cutCounted_other (hfree : s.arbor id.other = .free) : (cutCounted id k l r c s).arbor id.other = .free := by
  have hcoiler : (cutCounted id k l r c s).coiler = s.coiler.setArbor id (.busy .packing (cutCoil r c s)) :=
    MoveFrame.coiler (cutCounted_frame hl)
  unfold State.arbor
  rw [hcoiler, Coiler.arbor_setArbor_other]
  exact hfree

theorem cutCounted_meter :
    (cutCounted id k l r c s).meter = { s.meter with slipOpen := false, winCap := 0, winWheel := 0 } :=
  MoveFrame.meter (cutCounted_frame hl)

theorem cutCounted_rope (hr : s.rope = some r) : (cutCounted id k l r c s).rope = some r :=
  rope_congr_setLot (l' := countedLot l c.length.mm) hl rfl rfl cutCounted_lots
    (MoveFrame.lot (cutCounted_frame hl) staC0) hr

theorem cutCounted_seededCoil : seededCoil (countedLot l c.length.mm) r (cutCounted id k l r c s) = seededCoil l r s := by
  unfold seededCoil
  rw [cutCounted_meter hl]
  have h : LotFrame _ _ := cutCounted_frame (id := id) (r := r) (c := c) hl
  have hnow : (cutCounted id k l r c s).nowMs = s.nowMs := by
    unfold State.nowMs
    rw [MoveFrame.now h]
    rfl
  have hseed : (cutCounted id k l r c s).seedIds r = s.seedIds r := by
    unfold State.seedIds State.bobbinAt
    rw [MoveFrame.bobbins h]
    rfl
  unfold State.worksClock
  rw [hnow, hseed]
  rfl

theorem coilFollows_next (hr : s.rope = some r) (hfree : s.arbor id.other = .free) (hlt : l.started < l.build.ordered)
    (hcl : l.state ≠ .closed) :
    coilFollows id l.number (cutCounted id k l r c s) = nextCoil id k l r c s := by
  have h := coilFollows_starts (cutCounted_hasLot (id := id) (r := r) (c := c) hl) (cutCounted_rope hl hr)
    (cutCounted_other hl hfree) hlt
    (fun e => hcl (countedLot_closed.mp e))
  refine h.trans ?_
  rw [cutCounted_seededCoil hl, cutCounted_meter hl, cutCounted_lots, Vector.set_set]
  unfold nextCoil
  cases s.meter.stall <;> rfl

theorem coilFollows_ended (h : l.build.ordered ≤ l.started ∨ l.state = .closed) :
    coilFollows id l.number (cutCounted id k l r c s) =
      if (countedLot l c.length.mm).state = .complete ∨ (countedLot l c.length.mm).state = .closed then
        raiseCause staC0 .lotEnd (cutCounted id k l r c s)
      else cutCounted id k l r c s :=
  coilFollows_refused (cutCounted_hasLot hl) (h.imp_right countedLot_closed.mpr)

theorem coilFollows_cut (hr : s.rope = some r) (hfree : s.arbor id.other = .free) :
    CoilCut id (cutCoil r c s) s (coilFollows id l.number (cutCounted id k l r c s)) := by
  by_cases h : l.started < l.build.ordered ∧ l.state ≠ .closed
  · rw [coilFollows_next hl hr hfree h.1 h.2]
    exact (CoilCut.of_lot (cutCounted_frame hl)).starts ..
  · rw [coilFollows_ended hl ((not_and_or.mp h).imp Nat.not_lt.mp not_not.mp)]
    refine .of_lot ((cutCounted_frame hl).trans ?_)
    split
    · exact .ofMove (raiseCause_move ..)
    · exact .refl _

end

/-! ## The tag (R148) and C0's move (R7) -/

/-- The arbor's coil with the head of the tag list, or as it was where the list is empty. -/
def tagged (id : ArborId) (d : Coil) (t : State) : State :=
  t.setCoiler ({ t.coiler with tags := t.coiler.tags.tail }.setArbor id
    (.busy .packing { d with tag := match t.coiler.tags with | x :: _ => some x | [] => d.tag }))

theorem tagOnPacking_frame {id : ArborId} {d : Coil} {t : State} (h : t.arbor id = .busy .packing d) :
    NoticeFrame (tagged id d t) (tagOnPacking id t) := by
  unfold tagOnPacking
  split
  · next hnil =>
    have hsame : ({ t.coiler with tags := [] } : Coiler).setArbor id (.busy .packing d) = t.coiler := by
      rw [← hnil, ← h]
      cases id <;> rfl
    have htagged : tagged id d t = t := by
      unfold tagged
      rw [hnil]
      exact congrArg t.setCoiler hsame
    rw [htagged]
    exact raise_frame ..
  · next hne =>
    obtain ⟨x, rest, hx⟩ := List.exists_cons_of_ne_nil hne
    have htaken : modCoil id (fun c => { c with tag := some x }) (t.setCoiler { t.coiler with tags := rest }) =
        tagged id d t := by
      unfold modCoil tagged
      rw [show (t.setCoiler { t.coiler with tags := rest }).arbor id = .busy .packing d by rw [← h]; cases id <;> rfl, hx]
      rfl
    unfold takeTag
    rw [hx]
    dsimp only
    rw [htaken]
    split
    · exact warn_frame ..
    · exact .refl _

theorem settle_closer (s : State) :
    settle staC0 s = writeStation staC0 (emptied staC0 (s.station staC0).causes (s.station staC0)) s := by
  have h := settleOne_setStation staC0 (s.station staC0).causes s
  rw [State.setStation_station_id] at h
  exact (settle_eq_settleOne _ _ (by decide)).trans h

/-- `u` is `t` once the coil `d` PACKING on arbor `id` has its tag and C0 has made its move. -/
structure CoilPacked (id : ArborId) (d : Coil) (s t u : State) : Prop where
  frame : u = { s with
    stations := u.stations, twists := u.twists, lots := u.lots, coiler := u.coiler, meter := u.meter
    ports := u.ports, queues := u.queues }
  noticed : Noticed s u
  packing : u.arbor id = .busy .packing { d with tag := match s.coiler.tags with | x :: _ => some x | [] => d.tag }
  tags : u.coiler.tags = s.coiler.tags.tail
  outbound : u.coiler.outbound = s.coiler.outbound
  other : u.arbor id.other = t.arbor id.other
  meter : u.meter = t.meter
  lots : u.lots = t.lots
  closer : u.station staC0 = emptied staC0 (t.station staC0).causes (t.station staC0)
  station : ∀ i, i ≠ staC0 → u.station i = t.station i

theorem CoilCut.packed {id : ArborId} {d : Coil} {s t : State} (h : CoilCut id d s t) :
    CoilPacked id d s t (settle staC0 (tagOnPacking id t)) := by
  obtain ⟨hframe, hnoted, hpack, htags, hout⟩ := h
  have htag := tagOnPacking_frame hpack
  have hend : NoticeFrame
      ((tagged id d t).setStation staC0 (emptied staC0 (t.station staC0).causes (t.station staC0)))
      (settle staC0 (tagOnPacking id t)) := by
    have hcloser : (tagOnPacking id t).station staC0 = t.station staC0 := htag.station staC0
    rw [settle_closer, hcloser]
    exact (htag.setStation ..).trans (writeStation_frame ..)
  have hcoiler := hend.coiler
  refine ⟨?_, ?_, ?_, ?_, ?_, ?_, hend.meter, hend.lots, ?_, fun i hi => ?_⟩
  · rw [hend.1, hframe]
    rfl
  · have htagged :
        Noticed t ((tagged id d t).setStation staC0 (emptied staC0 (t.station staC0).causes (t.station staC0))) :=
      .of_ports rfl rfl
    exact (hnoted.trans htagged).trans (.of_notice hend)
  · unfold State.arbor
    rw [hcoiler, ← htags]
    exact Coiler.arbor_setArbor ..
  · rw [hcoiler, ← htags]
    cases id <;> rfl
  · rw [hcoiler, ← hout]
    cases id <;> rfl
  · unfold State.arbor
    rw [hcoiler]
    cases id <;> rfl
  · exact (hend.station _).trans (State.setStation_station_self ..)
  · exact (hend.station _).trans (State.setStation_station_ne _ _ _ _ hi)

/-! ## CUT_DONE done (R147) -/

theorem emptied_causes (i : Sta) (x : BitSet 12) (r : Station) : (emptied i x r).causes = x := by
  unfold emptied
  split <;> rfl

theorem emptied_state_of_ne {i : Sta} {x : BitSet 12} {r : Station} (h : x ≠ 0) : (emptied i x r).state = r.state := by
  unfold emptied
  rw [if_neg fun e => h e.1]

theorem countedLot_open {l : Lot} {mm : Nat}
    (h : l.done + 1 ≠ l.build.ordered ∨ (l.state ≠ .active ∧ l.state ≠ .held)) :
    countedLot l mm = { l with produced := min 4294967295 (l.produced + mm), done := l.done + 1 } := by
  unfold countedLot
  rw [if_neg fun ⟨h1, h2⟩ => h.elim (fun h => h h2) fun h => h1.elim h.1 h.2]

theorem countedLot_complete {l : Lot} {mm : Nat} (h : l.done + 1 = l.build.ordered)
    (hst : l.state = .active ∨ l.state = .held) :
    countedLot l mm =
      { l with produced := min 4294967295 (l.produced + mm), done := l.done + 1, state := .complete } := by
  unfold countedLot
  rw [if_pos ⟨hst, h⟩]

section
variable {id : ArborId} {k : Slot} {l : Lot} {r : RopeLot} {c : Coil} {s : State} (hl : HasLot s k l)
  (hc : c.lot = l.number) (hb : l.build = .rope r) (hr : s.rope = some r) (hfree : s.arbor id.other = .free)
include hl hc hb hr hfree

theorem cutReport_packed :
    CoilPacked id (cutCoil r c s) s (coilFollows id l.number (cutCounted id k l r c s)) (cutReport id c s) := by
  rw [cutReport_eq hl hc hb]
  exact (coilFollows_cut hl hr hfree).packed

/-- The next coil starts. -/
theorem cutReport_next (hlt : l.started < l.build.ordered) (hcl : l.state ≠ .closed)
    (hopen : l.done + 1 ≠ l.build.ordered) :
    (cutReport id c s).arbor id.other = .busy .winding (seededCoil l r s) ∧
    (cutReport id c s).meter = { s.meter with slipOpen := !s.meter.stall, winCap := 0, winWheel := 0 } ∧
    (cutReport id c s).lots = s.lots.set k (some { l with
      produced := min 4294967295 (l.produced + c.length.mm), done := l.done + 1, started := l.started + 1 }) ∧
    (cutReport id c s).station staC0 =
      emptied staC0 ((s.station staC0).causes &&& 0x9FF) (s.station staC0) ∧
    ∀ i, i ≠ staC0 → (cutReport id c s).station i = s.station i := by
  have h := cutReport_packed hl hc hb hr hfree
  rw [coilFollows_next hl hr hfree hlt hcl] at h
  have hstation (i : Sta) : (nextCoil id k l r c s).station i = (cutCounted id k l r c s).station i := rfl
  refine ⟨h.other.trans ?_, h.meter, h.lots.trans ?_, h.closer.trans ?_, fun i hi => (h.station i hi).trans ?_⟩
  · cases id <;> rfl
  · unfold nextCoil
    rw [countedLot_open (.inl hopen)]
  · rw [hstation, cutCounted_open_closer (.inl hopen)]
    rfl
  · rw [hstation, cutCounted_open_station (.inl hopen) hi]

/-- No coil starts, and the lot has ended. -/
theorem cutReport_ends (hno : l.build.ordered ≤ l.started ∨ l.state = .closed)
    (hst : (countedLot l c.length.mm).state = .complete ∨ (countedLot l c.length.mm).state = .closed) :
    CoilPacked id (cutCoil r c s) s (raiseCause staC0 .lotEnd (cutCounted id k l r c s)) (cutReport id c s) := by
  have h := cutReport_packed hl hc hb hr hfree
  rw [coilFollows_ended hl hno, if_pos hst] at h
  exact h

theorem cutReport_ended (hno : l.build.ordered ≤ l.started ∨ l.state = .closed)
    (hst : (countedLot l c.length.mm).state = .complete ∨ (countedLot l c.length.mm).state = .closed) :
    (cutReport id c s).arbor id.other = .free ∧
    (cutReport id c s).meter = { s.meter with slipOpen := false, winCap := 0, winWheel := 0 } ∧
    (cutReport id c s).lots = s.lots.set k (some (countedLot l c.length.mm)) ∧
    ((cutReport id c s).station staC0).causes = ((cutCounted id k l r c s).station staC0).causes ||| 0x100 := by
  have h := cutReport_ends hl hc hb hr hfree hno hst
  have hmove := raiseCause_move staC0 .lotEnd (cutCounted id k l r c s)
  refine ⟨h.other.trans ?_, h.meter.trans (hmove.meter.trans (cutCounted_meter hl)),
    h.lots.trans (hmove.lots.trans cutCounted_lots), ?_⟩
  · exact (arbor_congr hmove.coiler _).trans (cutCounted_other hl hfree)
  · rw [h.closer, emptied_causes]
    exact raiseCause_causes _ rfl

theorem cutReport_closed (hcl : l.state = .closed) :
    ((cutReport id c s).station staC0).causes = (s.station staC0).causes &&& 0x9FF ||| 0x100 ∧
    ((s.station staC0).state = .halted ∨ (s.station staC0).state = .runDown →
      ((cutReport id c s).station staC0).state = (s.station staC0).state) ∧
    ∀ i, i ≠ staC0 → (cutReport id c s).station i = s.station i := by
  have hopen : l.done + 1 ≠ l.build.ordered ∨ (l.state ≠ .active ∧ l.state ≠ .held) := .inr (by rw [hcl]; decide)
  have hcloser := cutCounted_open_closer (id := id) (k := k) (r := r) (c := c) (s := s) hopen
  have h := cutReport_ends hl hc hb hr hfree (.inr hcl) (.inr (countedLot_closed.mpr hcl))
  have hcauses := (cutReport_ended hl hc hb hr hfree (.inr hcl) (.inr (countedLot_closed.mpr hcl))).2.2.2
  rw [hcloser] at hcauses
  refine ⟨hcauses, fun hst => ?_, fun i hi => ?_⟩
  · have hne : ((raiseCause staC0 .lotEnd (cutCounted id k l r c s)).station staC0).causes ≠ 0 := by
      intro e
      have hbit := raiseCause_has_self (i := staC0) (c := .lotEnd) (s := cutCounted id k l r c s) rfl
      rw [e] at hbit
      exact absurd hbit (by decide)
    rw [h.closer, emptied_state_of_ne hne, raiseCause_state_still, hcloser]
    rw [hcloser]
    exact hst.symm
  · rw [h.station i hi, raiseCause_station_ne _ _ _ _ hi (.inl hi), cutCounted_open_station hopen hi]

end

theorem cutCounted_lacks {id : ArborId} {k : Slot} {l : Lot} {r : RopeLot} {c : Coil} {s : State} {x : Cause}
    (hx : x = .cutStop ∨ x = .arborBusy) :
    hasCause (((cutCounted id k l r c s).station staC0).causes ||| 0x100) x = false := by
  rw [cutCounted_closer]
  unfold hasCause BitSet.has
  rw [BitVec.getLsbD_or, BitVec.getLsbD_and]
  rcases hx with rfl | rfl <;> simp [Cause.idx]

/-! ## The request (R146) -/

theorem serveCutDone_elsewhere {i : Sta} {b : Byte} (h : i ≠ staK0 ∨ (b ≠ 0 ∧ b ≠ 1)) (s : State) :
    serveCoilerReport (staByte i) b 1 s = refuse .outOfRange s := by
  unfold serveCoilerReport arborOf
  rw [staOf_staByte]
  by_cases h0 : b = 0
  · rw [if_pos h0]
    exact if_pos (.inl (h.resolve_right fun h => h.1 h0))
  · rw [if_neg h0]
    by_cases h1 : b = 1
    · rw [if_pos h1]
      exact if_pos (.inl (h.resolve_right fun h => h.2 h1))
    · rw [if_neg h1]

theorem arborOf_code (id : ArborId) : arborOf (BitVec.ofNat 8 id.code) = some id := by cases id <;> rfl

theorem serveCutDone_unlotted {id : ArborId} {s : State} (h : (s.station staK0).lot = none) :
    serveCoilerReport (staByte staK0) (BitVec.ofNat 8 id.code) 1 s = refuse .wrongState s := by
  unfold serveCoilerReport
  rw [staOf_staByte, arborOf_code]
  dsimp only
  rw [if_neg (by decide), if_pos h]

theorem serveCutDone_cutting {id : ArborId} {c : Coil} {s : State} (hk : (s.station staK0).lot ≠ none)
    (h : s.arbor id = .busy .cutting c) :
    serveCoilerReport (staByte staK0) (BitVec.ofNat 8 id.code) 1 s =
      if cutLine s then answerOk (cutReport id c s) else refuse .wrongState s := by
  unfold serveCoilerReport
  rw [staOf_staByte, arborOf_code]
  dsimp only
  rw [if_neg (by decide), if_neg hk, if_pos rfl, h]

theorem serveCutDone_idle {id : ArborId} {s : State} (h : ∀ c, s.arbor id ≠ .busy .cutting c) :
    serveCoilerReport (staByte staK0) (BitVec.ofNat 8 id.code) 1 s = refuse .wrongState s := by
  by_cases hk : (s.station staK0).lot = none
  · exact serveCutDone_unlotted hk
  · unfold serveCoilerReport
    rw [staOf_staByte, arborOf_code]
    dsimp only
    rw [if_neg (by decide), if_neg hk, if_pos rfl]
    split
    · next c hc => exact absurd hc (h c)
    · rfl

theorem serveCutDone_lineLow {id : ArborId} {s : State} (h : cutLine s = false) :
    serveCoilerReport (staByte staK0) (BitVec.ofNat 8 id.code) 1 s = refuse .wrongState s := by
  by_cases hk : (s.station staK0).lot = none
  · exact serveCutDone_unlotted hk
  · by_cases hc : ∃ c, s.arbor id = .busy .cutting c
    · obtain ⟨c, hc⟩ := hc
      rw [serveCutDone_cutting hk hc, h]
      rfl
    · exact serveCutDone_idle fun c e => hc ⟨c, e⟩

/-- CUT is asserted for a CUTTING arbor exactly while the other is FREE (R144). -/
theorem cutLine_iff {id : ArborId} {c : Coil} {s : State} (hp : s.power = .running) (h : s.arbor id = .busy .cutting c) :
    cutLine s = true ↔ s.arbor id.other = .free := by
  unfold cutLine
  rw [hp, ← isFree_iff]
  cases id with
  | a =>
    have h : s.coiler.a = .busy .cutting c := h
    rw [h]
    show (_ && (s.coiler.b.isFree || (_ && false))) = true ↔ s.coiler.b.isFree = true
    simp
  | b =>
    have h : s.coiler.b = .busy .cutting c := h
    rw [h]
    show (_ && ((_ && false) || s.coiler.a.isFree)) = true ↔ s.coiler.a.isFree = true
    simp

theorem Arrived.cutLine {s a : State} (h : Arrived s a) : cutLine a = Machine.cutLine s := by
  rw [h]
  rfl

theorem Arrived.seededCoil {s a : State} (h : Arrived s a) (l : Lot) (r : RopeLot) :
    seededCoil l r a = Laws.seededCoil l r s := by
  rw [h]
  rfl

theorem Arrived.cutFramed {s a u : State} (h : Arrived s a)
    (hu : u = { a with
      stations := u.stations, twists := u.twists, lots := u.lots, coiler := u.coiler, meter := u.meter
      ports := u.ports, queues := u.queues }) :
    u = { s with
      stations := u.stations, twists := u.twists, lots := u.lots, coiler := u.coiler, meter := u.meter
      ports := u.ports, queues := u.queues } := by
  rw [h] at hu
  exact hu

end Sys2Proof.Laws

namespace Sys2Proof.Proofs

open Sys2Proof.Machine Sys2Proof.Safety Sys2Proof.Laws

/-- Settles O46: what `cutReport` leaves, for a coil that follows, a lot completed and a lot CLOSED, read in the state
that the frame's arrival leaves. -/
theorem cutDonePacksAndStarts : Obligations.CutDonePacksAndStarts := by
  have answers {p : Port} {i : Sta} {b : Byte} {s u : State} {code : Code} (hL : Listens p s) (hS : Steers p i s)
      (h : serveCoilerReport (staByte i) b 1 (validArrival p s) = (u, code, [])) (hu : Noticed (validArrival p s) u) :
      Answers p 0x58 code [] (.cutDone p (staByte i) b) s u :=
    answers_of_steered (r := .coilerReport (staByte i) b 1) hL hS rfl rfl rfl h hu
  refine ⟨fun p s hL => ⟨fun i b hS h => ?_, fun hS id => ⟨fun h => ?_, fun h => ?_, fun h => ?_, fun c h => ?_⟩⟩,
    ?_⟩
  · exact answers hL hS (serveCutDone_elsewhere h _) (.refl _)
  · exact answers hL hS (serveCutDone_unlotted (by rw [validArrival_station]; exact h)) (.refl _)
  · have harr : Arrived s (validArrival p s) := validArrival_arrived p s
    exact answers hL hS (serveCutDone_idle fun c => by rw [arbor_congr harr.coiler]; exact h c) (.refl _)
  · exact answers hL hS (serveCutDone_lineLow ((validArrival_arrived p s).cutLine.trans h)) (.refl _)
  · exact cutLine_iff hL.1 h
  intro p id c k l r s hL hS hk hcut hfree hl hc hb hr tag clock packed counted c0
  have harr : Arrived s (validArrival p s) := validArrival_arrived p s
  have hserve := serveCutDone_cutting (id := id) (c := c) (s := validArrival p s) (by rw [harr.station]; exact hk)
    ((arbor_congr harr.coiler _).trans hcut)
  rw [if_pos (harr.cutLine.trans ((cutLine_iff hL.1 hcut).mpr hfree))] at hserve
  have hans := answers hL hS hserve
  generalize validArrival p s = a at harr hans
  have hla : HasLot a k l := harr.hasLot hl
  have hra : a.rope = some r := harr.rope.trans hr
  have hfa : a.arbor id.other = .free := (arbor_congr harr.coiler _).trans hfree
  have hordered : l.build.ordered = r.ordered := by rw [hb]; rfl
  have hp := cutReport_packed hla hc hb hra hfa
  have hended := cutReport_ended hla hc hb hra hfa
  rw [harr.meter, harr.lots, hordered] at hended
  refine ⟨_, hans hp.noticed, harr.cutFramed hp.frame, ?_, ?_, ?_, fun hlt hcl hopen => ?_,
    fun hall hlast hst => ?_, fun hcl => ?_⟩
  · have hpacking := hp.packing
    unfold cutCoil State.worksClock at hpacking
    rw [harr.coiler, harr.nowMs] at hpacking
    exact hpacking
  · rw [hp.tags, harr.coiler]
  · rw [hp.outbound, harr.coiler]
  · obtain ⟨hother, hmeter, hlots, hcloser, hstation⟩ :=
      cutReport_next hla hc hb hra hfa (hordered ▸ hlt) hcl (hordered ▸ hopen)
    rw [harr.seededCoil] at hother
    rw [harr.meter] at hmeter
    rw [harr.lots] at hlots
    rw [harr.station] at hcloser
    exact ⟨hother, hmeter, hlots, hcloser, fun i hi => (hstation i hi).trans (harr.station i)⟩
  · have hcounted := countedLot_complete (mm := c.length.mm) (hordered ▸ hlast) hst
    rw [hcounted] at hended
    obtain ⟨hother, hmeter, hlots, hcauses⟩ := hended (.inl hall.ge) (.inl rfl)
    refine ⟨hother, hmeter, hlots, ?_, ?_, ?_⟩
    · rw [hcauses]
      unfold hasCause BitSet.has
      rw [BitVec.getLsbD_or]
      exact Bool.or_true _
    · rw [hcauses]
      exact cutCounted_lacks (.inl rfl)
    · rw [hcauses]
      exact cutCounted_lacks (.inr rfl)
  · have hcounted := countedLot_open (l := l) (mm := c.length.mm) (.inr (by rw [hcl]; decide))
    obtain ⟨hother, hmeter, hlots, -⟩ := hended (.inr hcl) (.inr (countedLot_closed.mpr hcl))
    rw [hcounted] at hlots
    obtain ⟨hcauses, hstate, hstation⟩ := cutReport_closed hla hc hb hra hfa hcl
    rw [harr.station] at hcauses hstate
    exact ⟨hother, hmeter, hlots, hcauses, hstate, fun i hi => (hstation i hi).trans (harr.station i)⟩

end Sys2Proof.Proofs
end

section
/-! STATION_STOP (O36). -/

namespace Sys2Proof.Laws

open Sys2Proof.Machine Sys2Proof.Safety

/-! ## The entry into RUN_DOWN, as a write of the station's record (R68) -/

/-- The twist record with which a run-down begins at what `s` has set and what time it is. -/
def runDownStarted (s : State) (w : Twist) : Twist :=
  { w with
    lay := w.lay.discard, stillMs := some s.nowMs, runUp := w.runUp.stop s.nowMs
    runDown := .startAt s.nowMs s.settings.scale }

theorem enterRunDown_eq (t : Twi) (s : State) :
    enterRunDown t s = writeStation (twiSta t) { s.station (twiSta t) with state := .runDown }
      (s.setTwist t (runDownStarted s (s.twist t))) :=
  moveTo_eq_writeStation ..

theorem enterRunDown_noticed (t : Twi) (s : State) : Noticed s (enterRunDown t s) := .of_move (enterRunDown_move t s)

/-- A frame's arrival leaves what the entry into RUN_DOWN reads. -/
theorem Arrived.enterRunDown {s a : State} (h : Arrived s a) (t : Twi) :
    enterRunDown t a = writeStation (twiSta t) { s.station (twiSta t) with state := .runDown }
      (a.setTwist t (runDownStarted s (s.twist t))) := by
  rw [enterRunDown_eq, h.station, h.twist]
  unfold runDownStarted
  rw [h.settings, h.nowMs]

/-! ## The stop of a twisting station (R67) -/

theorem stopTwist_running {t : Twi} {s : State}
    (h : (s.station (twiSta t)).state = .runUp ∨ (s.station (twiSta t)).state = .steady) :
    stopTwist t s = answerOk (enterRunDown t s) := by
  unfold stopTwist
  rcases h with h | h <;> rw [h]

theorem stopTwist_idle {t : Twi} {s : State} (h : (s.station (twiSta t)).state = .idle) :
    stopTwist t s = refuse .wrongState s := by
  unfold stopTwist
  rw [h]

theorem stopTwist_stopped {t : Twi} {s : State}
    (h : (s.station (twiSta t)).state = .standby ∨ (s.station (twiSta t)).state = .runDown ∨
      (s.station (twiSta t)).state = .halted) : stopTwist t s = answerOk s := by
  unfold stopTwist
  rcases h with h | h | h <;> rw [h]

/-! ## The stop of a loom (R112) -/

theorem stopLoom_knotting {m : Loom} {s : State} (h : (s.station (loomSta m)).state = .knotting) :
    stopLoom m s = answerOk (writeStation (loomSta m) { s.station (loomSta m) with state := .standby } s) := by
  unfold stopLoom
  dsimp only
  rw [h, ← moveTo_eq_writeStation]

theorem stopLoom_idle {m : Loom} {s : State} (h : (s.station (loomSta m)).state = .idle) :
    stopLoom m s = refuse .wrongState s := by
  unfold stopLoom
  dsimp only
  rw [h]

theorem stopLoom_stopped {m : Loom} {s : State}
    (h : (s.station (loomSta m)).state = .standby ∨ (s.station (loomSta m)).state = .rowHold ∨
      (s.station (loomSta m)).state = .halted) : stopLoom m s = answerOk s := by
  unfold stopLoom
  dsimp only
  rcases h with h | h | h <;> rw [h]

/-! ## The way to the station's kind -/

theorem twistOf_loomSta (m : Loom) : twistOf (loomSta m) = none := by revert m; decide

theorem loomOf_loomSta (m : Loom) : loomOf (loomSta m) = some m := by revert m; decide

theorem serveStationStop_twist (t : Twi) (s : State) : serveStationStop (staByte (twiSta t)) s = stopTwist t s := by
  unfold serveStationStop
  rw [staOf_staByte]
  dsimp only
  rw [twistOf_twiSta]

theorem serveStationStop_loom (m : Loom) (s : State) : serveStationStop (staByte (loomSta m)) s = stopLoom m s := by
  unfold serveStationStop
  rw [staOf_staByte]
  dsimp only
  rw [twistOf_loomSta, loomOf_loomSta]

/-- The coiler is neither a twisting station nor a loom, whatever state it is in (R64, R67). -/
theorem serveStationStop_coiler (s : State) : serveStationStop (staByte staK0) s = refuse .wrongState s := rfl

theorem serveStationRun_coiler (s : State) : serveStationRun (staByte staK0) s = refuse .wrongState s := rfl

end Sys2Proof.Laws

namespace Sys2Proof.Proofs

open Sys2Proof.Machine Sys2Proof.Safety Sys2Proof.Laws

/-- Settles O36: the stop request goes to the station's kind, which answers by the state the station is in. -/
theorem stopEndsTheRun : Obligations.StopEndsTheRun := by
  intro p s hL a
  have harr : Arrived s a := validArrival_arrived p s
  have answers {i : Sta} (hS : Steers p i s) {code : Code} {u : State}
      (h : serveStationStop (staByte i) a = (u, code, [])) (hu : Noticed a u) :
      Answers p 0x29 code [] (.stationStop p (staByte i)) s u :=
    answers_of_steered (r := .stationStop (staByte i)) hL hS rfl rfl rfl h hu
  refine ⟨fun t hS => ?twist, fun m hS => ?loom, fun hS => ⟨?coilerRun, ?coilerStop⟩⟩
  case twist =>
    have hserve := serveStationStop_twist t a
    intro i r w
    have hr : a.station (twiSta t) = r := harr.station _
    refine ⟨fun h => ?_, fun h => ?_, fun h => ?_⟩
    · rw [stopTwist_running (hr ▸ h), harr.enterRunDown] at hserve
      exact answers hS hserve (harr.enterRunDown t ▸ enterRunDown_noticed t a)
    · exact answers hS (hserve.trans (stopTwist_idle (hr ▸ h))) (.refl _)
    · exact answers hS (hserve.trans (stopTwist_stopped (hr ▸ h))) (.refl _)
  case loom =>
    have hserve := serveStationStop_loom m a
    intro i r
    have hr : a.station (loomSta m) = r := harr.station _
    refine ⟨fun h => ?_, fun h => ?_, fun h => ?_⟩
    · rw [stopLoom_knotting (hr ▸ h), hr] at hserve
      exact answers hS hserve (writeStation_noticed ..)
    · exact answers hS (hserve.trans (stopLoom_idle (hr ▸ h))) (.refl _)
    · exact answers hS (hserve.trans (stopLoom_stopped (hr ▸ h))) (.refl _)
  case coilerRun =>
    exact answers_of_steered (r := .stationRun (staByte staK0)) hL hS rfl rfl rfl (serveStationRun_coiler a) (.refl _)
  case coilerStop => exact answers hS (serveStationStop_coiler a) (.refl _)

end Sys2Proof.Proofs
end

section
/-! What leaves the bobbin table as it is. -/

namespace Sys2Proof.Laws

open Sys2Proof.Machine Sys2Proof.Safety

/-! ## Shared operations -/

section
variable (s : State)

@[simp] theorem raise_bobbins (cls : NoticeClass) (sub : Subject) (d : BitVec 16) : (raise cls sub d s).bobbins = s.bobbins :=
  (raise_frame ..).bobbins
@[simp] theorem warn_bobbins (w : Warning) (cls : NoticeClass) (sub : Subject) (d : BitVec 16) :
    (warn w cls sub d s).bobbins = s.bobbins := (warn_frame ..).bobbins
@[simp] theorem offer_bobbins (p : Port) (cls : NoticeClass) (sub : Subject) (d : BitVec 16) :
    (offer p cls sub d s).bobbins = s.bobbins := (offer_frame ..).bobbins
@[simp] theorem moveTo_bobbins (i : Sta) (st : RunState) : (moveTo i st s).bobbins = s.bobbins := (moveTo_move ..).bobbins
@[simp] theorem changeState_bobbins (i : Sta) (st : RunState) (d : BitVec 16) :
    (changeState i st d s).bobbins = s.bobbins := (changeState_move ..).bobbins
@[simp] theorem enterRunDown_bobbins (t : Twi) : (enterRunDown t s).bobbins = s.bobbins := (enterRunDown_move ..).bobbins
@[simp] theorem raiseCause_bobbins (i : Sta) (c : Cause) : (raiseCause i c s).bobbins = s.bobbins := (raiseCause_move ..).bobbins
@[simp] theorem removeCause_bobbins (i : Sta) (c : Cause) : (removeCause i c s).bobbins = s.bobbins :=
  (removeCause_move ..).bobbins
@[simp] theorem dropCause_bobbins (i : Sta) (c : Cause) : (dropCause i c s).bobbins = s.bobbins := (dropCause_move ..).bobbins
@[simp] theorem settle_bobbins (i : Sta) : (settle i s).bobbins = s.bobbins := (settle_move ..).bobbins
@[simp] theorem raiseOnAll_bobbins (set : BitSet 8) (c : Cause) : (raiseOnAll set c s).bobbins = s.bobbins :=
  (raiseOnAll_move ..).bobbins
@[simp] theorem removeFromAll_bobbins (set : BitSet 8) (c : Cause) : (removeFromAll set c s).bobbins = s.bobbins :=
  (removeFromAll_move ..).bobbins

theorem LotFrame.bobbins {s t : State} (h : LotFrame s t) : t.bobbins = s.bobbins :=
  MoveFrame.bobbins (s := { s with lots := t.lots }) h

@[simp] theorem modLot_bobbins (n : Nat) (f : Lot → Lot) : (modLot n f s).bobbins = s.bobbins := (modLot_lotFrame ..).bobbins
@[simp] theorem addStart_bobbins (n : Nat) : (addStart n s).bobbins = s.bobbins := modLot_bobbins ..
@[simp] theorem withdrawStart_bobbins (n : Nat) : (withdrawStart n s).bobbins = s.bobbins := modLot_bobbins ..
@[simp] theorem addProduced_bobbins (n mm : Nat) : (addProduced n mm s).bobbins = s.bobbins := modLot_bobbins ..
@[simp] theorem moveLot_bobbins (n : Nat) (st : LotState) : (moveLot n st s).bobbins = s.bobbins := (moveLot_frame ..).bobbins
@[simp] theorem countDone_bobbins (n : Nat) : (countDone n s).bobbins = s.bobbins := (countDone_frame ..).bobbins

@[simp] theorem modCoil_bobbins (id : ArborId) (f : Coil → Coil) : (modCoil id f s).bobbins = s.bobbins := by
  unfold modCoil
  split <;> simp

@[simp] theorem ite_bobbins (c : Prop) [Decidable c] (a b : State) :
    (if c then a else b).bobbins = if c then a.bobbins else b.bobbins := apply_ite ..

@[simp] theorem modLoom_bobbins (l : Loom) (f : LoomPos → LoomPos) : (modLoom l f s).bobbins = s.bobbins := rfl
@[simp] theorem modLay_bobbins (t : Twi) (f : Lay → Lay) : (modLay t f s).bobbins = s.bobbins := rfl
@[simp] theorem discardSlip_bobbins : (discardSlip s).bobbins = s.bobbins := rfl

/-- A fold of steps that each leave the table leaves it. -/
theorem foldl_bobbins {α : Type} {f : State → α → State} (h : ∀ s a, (f s a).bobbins = s.bobbins) (xs : List α) :
    (xs.foldl f s).bobbins = s.bobbins :=
  foldl_frame (F := fun s t => t.bobbins = s.bobbins) (fun _ => rfl) (fun h k => k.trans h) f h xs s

/-! ## Coiling and metering -/

@[simp] theorem startCoil_bobbins (id : ArborId) (n : Nat) : (startCoil id n s).bobbins = s.bobbins := by
  unfold startCoil
  extract_lets s1 seq c c' s2
  have h2 : s2.bobbins = s.bobbins := addStart_bobbins ..
  split <;> exact h2

@[simp] theorem coilIncrement_bobbins (d : Nat) : (coilIncrement d s).bobbins = s.bobbins :=
  MoveFrame.bobbins (s := { s with coiler := (coilIncrement d s).coiler }) (coilIncrement_frame d s)

@[simp] theorem coilShortfall_bobbins (d : Nat) : (coilShortfall d s).bobbins = s.bobbins := by
  rw [coilShortfall_frame]

@[simp] theorem takeTag_bobbins (id : ArborId) : (takeTag id s).bobbins = s.bobbins := by
  unfold takeTag
  split <;> simp

@[simp] theorem tagOnPacking_bobbins (id : ArborId) : (tagOnPacking id s).bobbins = s.bobbins := by
  unfold tagOnPacking
  simp

@[simp] theorem postCoil_bobbins (c : Coil) : (postCoil c s).bobbins = s.bobbins := by
  unfold postCoil
  simp

@[simp] theorem freeArbor_bobbins (id : ArborId) : (freeArbor id s).bobbins = s.bobbins := by
  unfold freeArbor
  simp

@[simp] theorem cutPoint_bobbins (id : ArborId) : (cutPoint id s).bobbins = s.bobbins := by
  unfold cutPoint
  split <;> simp

@[simp] theorem coilFollows_bobbins (id : ArborId) (n : Nat) : (coilFollows id n s).bobbins = s.bobbins := by
  unfold coilFollows
  split
  · simp
  · split <;> simp

@[simp] theorem cutReport_bobbins (id : ArborId) (c : Coil) : (cutReport id c s).bobbins = s.bobbins := by
  have follows (u : State) (n : Nat) : (settle staC0 (tagOnPacking id (coilFollows id n u))).bobbins = u.bobbins := by simp
  exact (follows ..).trans (by simp)

@[simp] theorem packReport_bobbins (id : ArborId) (c : Coil) : (packReport id c s).bobbins = s.bobbins := by
  unfold packReport
  simp

@[simp] theorem closeArbor_bobbins (n : Nat) : (closeArbor n s).bobbins = s.bobbins := by
  unfold closeArbor
  split
  · split <;> simp
  · rfl

@[simp] theorem closeSlip_bobbins : (closeSlip s).bobbins = s.bobbins := by
  unfold closeSlip
  dsimp only
  split <;> simp

@[simp] theorem takeStall_bobbins : (takeStall s).bobbins = s.bobbins := by
  unfold takeStall
  dsimp only
  split <;> simp

@[simp] theorem takeRecovery_bobbins : (takeRecovery s).bobbins = s.bobbins := warn_bobbins ..
@[simp] theorem addUnassigned_bobbins (d : Nat) : (addUnassigned d s).bobbins = s.bobbins := rfl

@[simp] theorem meterCap_bobbins (d : Nat) : (meterCap d s).bobbins = s.bobbins := by
  unfold meterCap
  split
  · dsimp only
    cases s.receivingCoil <;> simp
  · rfl

@[simp] theorem meterWheel_bobbins (d : Nat) : (meterWheel d s).bobbins = s.bobbins := by
  unfold meterWheel
  split
  · extract_lets m s1 s2 s3
    have h2 : s2.bobbins = s.bobbins := by
      unfold s2
      split
      · exact takeRecovery_bobbins _
      · rfl
    have h3 : s3.bobbins = s.bobbins := by
      unfold s3
      split
      · split
        · exact (coilIncrement_bobbins ..).trans h2
        · exact h2
      · exact h2
    split <;> exact h3
  · rfl

/-! ## Lay and twist -/

@[simp] theorem supplyLayStat_bobbins (t : Twi) (f : Int) (d : Bool) : (supplyLayStat t f d s).bobbins = s.bobbins := by
  unfold supplyLayStat
  split
  · split <;> simp
  · rfl

@[simp] theorem closeRunUp_bobbins (t : Twi) (e : Int) (tol : Nat) : (closeRunUp t e tol s).bobbins = s.bobbins := by
  unfold closeRunUp
  simp

@[simp] theorem closeSteady_bobbins (t : Twi) (e f : Int) (tol : Nat) : (closeSteady t e f tol s).bobbins = s.bobbins := by
  unfold closeSteady
  simp

@[simp] theorem reopen_bobbins (t : Twi) : (reopen t s).bobbins = s.bobbins := by
  unfold reopen
  simp

@[simp] theorem closeWindow_bobbins (t : Twi) : (closeWindow t s).bobbins = s.bobbins := by
  unfold closeWindow
  split <;> simp

@[simp] theorem flyEdge_bobbins (t : Twi) : (flyEdge t s).bobbins = s.bobbins := by
  unfold flyEdge layFly flyStill
  simp

@[simp] theorem expireWindow_bobbins (t : Twi) : (expireWindow t s).bobbins = s.bobbins := by simp [expireWindow]
@[simp] theorem longRunUp_bobbins (t : Twi) : (longRunUp t s).bobbins = s.bobbins := by simp [longRunUp]
@[simp] theorem longRunDown_bobbins (t : Twi) : (longRunDown t s).bobbins = s.bobbins := by simp [longRunDown]
@[simp] theorem startTwist_bobbins (t : Twi) : (startTwist t s).bobbins = s.bobbins := by simp [startTwist]
@[simp] theorem accumulate_bobbins (t : Twi) (d : Nat) : (accumulate t d s).bobbins = s.bobbins := by simp [accumulate]
@[simp] theorem layCap_bobbins (t : Twi) (d : Nat) : (layCap t d s).bobbins = s.bobbins := by simp [layCap]
@[simp] theorem wheelEdge_bobbins : (wheelEdge s).bobbins = s.bobbins := by simp [wheelEdge]

/-! ## Looms -/

@[simp] theorem openRow_bobbins (l : Loom) : (openRow l s).bobbins = s.bobbins := rfl
@[simp] theorem startPanel_bobbins (l : Loom) (c : NetLot) : (startPanel l c s).bobbins = s.bobbins := by simp [startPanel]
@[simp] theorem finishPanel_bobbins (l : Loom) : (finishPanel l s).bobbins = s.bobbins := by simp [finishPanel]
@[simp] theorem rejectPanel_bobbins (l : Loom) : (rejectPanel l s).bobbins = s.bobbins := by simp [rejectPanel]

@[simp] theorem attemptPanel_bobbins (l : Loom) : (attemptPanel l s).1.bobbins = s.bobbins := by
  unfold attemptPanel
  dsimp only
  split
  · split <;> simp
  · rfl

@[simp] theorem stopOrNext_bobbins (l : Loom) : (stopOrNext l s).1.bobbins = s.bobbins := by
  unfold stopOrNext
  dsimp only
  split <;> rfl

@[simp] theorem compareKnots_bobbins (l : Loom) (knots : BitVec 256) : (compareKnots l knots s).bobbins = s.bobbins := by
  unfold compareKnots
  dsimp only
  split <;> simp

@[simp] theorem taper_bobbins (l : Loom) : (taper l s).bobbins = s.bobbins := by
  unfold taper
  simp

/-! ## Lots, stations, settings -/

@[simp] theorem joinLot_bobbins (i : Sta) (n : Nat) : (joinLot i n s).bobbins = s.bobbins := by simp [joinLot]

@[simp] theorem zeroAcc_bobbins (i : Sta) : (zeroAcc i s).bobbins = s.bobbins := by
  unfold zeroAcc
  split <;> simp

@[simp] theorem attachPair_bobbins : (attachPair s).bobbins = s.bobbins := rfl
@[simp] theorem attachLoom_bobbins (l : Loom) (c : NetLot) : (attachLoom l c s).bobbins = s.bobbins := rfl

@[simp] theorem feedOutAtAttach_bobbins (i : Sta) : (feedOutAtAttach i s).bobbins = s.bobbins := by
  unfold feedOutAtAttach
  simp [foldl_bobbins]

@[simp] theorem attachLot_bobbins (i : Sta) (l : Lot) : (attachLot i l s).bobbins = s.bobbins := by
  unfold attachLot
  dsimp only
  split <;> simp

@[simp] theorem leaveLot_bobbins (i : Sta) : (leaveLot i s).bobbins = s.bobbins := by simp [leaveLot, foldl_bobbins]
@[simp] theorem lotLosesStation_bobbins (n : Nat) (i : Sta) : (lotLosesStation n i s).bobbins = s.bobbins := modLot_bobbins ..

@[simp] theorem readyIfLeft_bobbins (n : Nat) : (readyIfLeft n s).bobbins = s.bobbins := by
  unfold readyIfLeft
  split <;> simp

@[simp] theorem detachLoom_bobbins (l : Loom) : (detachLoom l s).bobbins = s.bobbins := by simp [detachLoom]

@[simp] theorem detachLot_bobbins (i : Sta) (n : Nat) : (detachLot i n s).bobbins = s.bobbins := by
  unfold detachLot
  dsimp only
  cases loomOf i <;> simp

@[simp] theorem clearFaults_bobbins (i : Sta) : (clearFaults i s).bobbins = s.bobbins := by
  rw [clearFaults_staFrame]

@[simp] theorem fallSilent_bobbins (p : Port) : (fallSilent p s).bobbins = s.bobbins := by
  simp [fallSilent, foldl_bobbins]

@[simp] theorem validArrival_bobbins (p : Port) : (validArrival p s).bobbins = s.bobbins := (validArrival_arrived p s).bobbins

@[simp] theorem settingsTaken_bobbins (wrote : Nat → Bool) : (settingsTaken wrote s).bobbins = s.bobbins := by
  simp [settingsTaken, foldl_bobbins]

@[simp] theorem discardPending_bobbins (old : Settings) : (discardPending old s).bobbins = s.bobbins := by
  simp [discardPending, foldl_bobbins]

@[simp] theorem listOnCoil_bobbins (i : Sta) (id : Nat) : (listOnCoil i id s).bobbins = s.bobbins := by
  unfold listOnCoil
  split
  · split <;> simp
  · rfl

@[simp] theorem restoreFeed_bobbins (i : Sta) : (restoreFeed i s).bobbins = s.bobbins := by simp [restoreFeed]

/-- Before the ends of fill, a stop leaves the table (R8, R9). -/
@[simp] theorem allStopped_bobbins (c : Cause) : (allStopped c s).bobbins = s.bobbins := (allStopped_move c s).bobbins

end

end Sys2Proof.Laws
end

section
/-! What keeps the bobbin table in order (R81, R83), operation by operation, and the statement about steps (O56). -/

namespace Sys2Proof.Laws

open Sys2Proof.Machine Sys2Proof.Safety

/-! ## The table in order -/

/-- `t` has its bobbin table in order where `s` has. -/
structure TableKept (s t : State) : Prop where
  table : BobbinTableOk s.bobbins → BobbinTableOk t.bobbins

theorem TableKept.refl (s : State) : TableKept s s := ⟨id⟩

theorem TableKept.trans {s t u : State} (h : TableKept s t) (k : TableKept t u) : TableKept s u := ⟨k.table ∘ h.table⟩

/-- What leaves the table as it is keeps it in order. -/
theorem TableKept.of_eq {s t : State} (h : t.bobbins = s.bobbins) : TableKept s t := ⟨fun hs => h ▸ hs⟩

/-- A step that leaves the table as it is, after one that keeps it. -/
theorem TableKept.then {s t u : State} (h : TableKept s t) (k : u.bobbins = t.bobbins) : TableKept s u := h.trans (.of_eq k)

theorem TableKept.ite {s a : State} {c : Prop} [Decidable c] (h : c → TableKept s a) : TableKept s (if c then a else s) := by
  split
  · next hc => exact h hc
  · exact .refl s

theorem TableKept.foldl {α : Type} (f : State → α → State) (h : ∀ s a, TableKept s (f s a)) (xs : List α) (s : State) :
    TableKept s (xs.foldl f s) := foldl_frame TableKept.refl TableKept.trans f h xs s

/-- A record written back in order keeps the table in order. -/
theorem putBobbin_table {s : State} {b b' : Bobbin} (hb : b ∈ s.bobbins) (h : BobbinOk b → BobbinOk b') :
    TableKept s (putBobbin b' s) := by
  refine ⟨fun ⟨hlen, hids, hok⟩ => ⟨(List.length_map _).trans_le hlen, pairwise_withBobbin b' hids, fun x hx => ?_⟩⟩
  obtain ⟨y, hy, rfl⟩ := List.mem_map.mp hx
  split
  · exact h (hok b hb)
  · exact hok y hy

theorem bobbinAt_mem {s : State} {pl : Place} {b : Bobbin} (h : s.bobbinAt pl = some b) : b ∈ s.bobbins :=
  List.mem_of_find?_eq_some h

theorem bobbin?_mem {s : State} {n : Nat} {b : Bobbin} (h : s.bobbin? n = some b) : b ∈ s.bobbins :=
  List.mem_of_find?_eq_some h

/-! ## Records in order (R81, R83) -/

theorem bobbinOk_drawn_zero {b : Bobbin} (h : BobbinOk b) (hst : b.state = .spare ∨ b.state = .winding ∨ b.state = .full) :
    b.drawn.total = 0 := by
  obtain ⟨-, -, -, -, -, -, hzero⟩ := h
  exact hzero hst

/-- A record whose lengths stand is in order in every state but, where a length may have been drawn, those before the first
mount. -/
theorem bobbinOk_restate {b b' : Bobbin} (h : BobbinOk b) (hid : b'.id = b.id) (hcap : b'.capacity = b.capacity)
    (hw : b'.wound = b.wound) (hd : b'.drawn = b.drawn)
    (hst : b'.state = .spare ∨ b'.state = .winding ∨ b'.state = .full →
      b.state = .spare ∨ b.state = .winding ∨ b.state = .full) : BobbinOk b' := by
  obtain ⟨h1, h2, h3, h4, h5, h6, h7⟩ := h
  unfold BobbinOk
  rw [hid, hcap, hw, hd]
  exact ⟨h1, h2, h3, h4, h5, h6, fun k => h7 (hst k)⟩

/-- A record with nothing drawn is in order in every state. -/
theorem bobbinOk_undrawn {b b' : Bobbin} (h : BobbinOk b) (hid : b'.id = b.id) (hcap : b'.capacity = b.capacity)
    (hw : b'.wound.total ≤ b.capacity * 1000) (hd : b'.drawn.total = 0) : BobbinOk b' := by
  obtain ⟨h1, h2, h3, h4, -⟩ := h
  unfold BobbinOk
  rw [hid, hcap, hd]
  exact ⟨h1, h2, h3, h4, Nat.zero_le _, hw, fun _ => rfl⟩

theorem Len.zero_total : Len.zero.total = 0 := rfl

/-- A record with nothing wound or drawn is in order. -/
theorem bobbinOk_empty {b b' : Bobbin} (h : BobbinOk b) (hid : b'.id = b.id) (hcap : b'.capacity = b.capacity)
    (hw : b'.wound = .zero) (hd : b'.drawn.total = 0) : BobbinOk b' := by
  refine bobbinOk_undrawn h hid hcap ?_ hd
  rw [hw, Len.zero_total]
  exact Nat.zero_le _

/-- A draw takes at most what is left (R95). -/
theorem bobbinOk_drawnBy {b : Bobbin} (h : BobbinOk b) (x low : Nat) : BobbinOk (drawnBy x low b) := by
  obtain ⟨h1, h2, h3, h4, h5, h6, -⟩ := h
  have hstate : (drawnBy x low b).state = .runOut ∨ (drawnBy x low b).state = .mounted := by
    show (if _ then BobbinState.runOut else .mounted) = _ ∨ (if _ then BobbinState.runOut else .mounted) = _
    split <;> simp
  refine ⟨h1, h2, h3, h4, ?_, h6, fun hst => ?_⟩
  · show (Len.ofUm _).total ≤ b.wound.total
    rw [Len.ofUm_total]
    omega
  · rcases hstate with e | e <;> rw [e] at hst <;> simp at hst

/-- Winding stops at the capacity (R87). -/
theorem bobbinOk_woundBy {b : Bobbin} (h : BobbinOk b) (hw : b.state = .winding) (d : Nat) : BobbinOk (woundBy d b) := by
  have hzero := bobbinOk_drawn_zero h (.inr (.inl hw))
  refine bobbinOk_undrawn h rfl rfl ?_ hzero
  show Len.total (if decide (b.capacity * 1000 < b.wound.total + d) = true then _ else _) ≤ _
  split
  · exact (Nat.add_zero _).le
  · next hfits =>
    rw [decide_eq_true_eq] at hfits
    rw [Len.ofUm_total]
    omega

/-! ## Winding and draw -/

theorem endFill_table (i : Strander) (s : State) : TableKept s (endFill i s) := by
  unfold endFill
  refine .ite fun _ => ?_
  split
  · next b hb =>
    refine .ite fun hw => ?_
    have hput : TableKept s (putBobbin { b with state := .full, place := none, fillPoint := none } s) :=
      putBobbin_table (bobbinAt_mem hb) fun h => bobbinOk_restate h rfl rfl rfl rfl fun _ => .inr (.inl hw)
    refine hput.then ?_
    dsimp only
    cases b.lot <;> simp
  · exact .refl s

theorem windBobbin_table (i : Strander) (d : Nat) (s : State) : TableKept s (windBobbin i d s) := by
  unfold windBobbin
  split
  · next b hb =>
    refine .ite fun hw => ?_
    extract_lets sum clamped wound s1 s2 full
    have h1 : TableKept s s1 := putBobbin_table (bobbinAt_mem hb) fun h => bobbinOk_woundBy h hw d
    have h2 : TableKept s s2 := h1.then (by simp [s2])
    refine h2.trans (.ite fun _ => ?_)
    exact (TableKept.of_eq (raiseCause_bobbins ..)).trans (endFill_table ..)
  · exact .refl s

theorem charge_table (i : Sta) (pl : Place) (d : Nat) (s : State) : TableKept s (charge i pl d s).1 := by
  by_cases hm : ∃ b, s.bobbinAt pl = some b ∧ b.state = .mounted
  · obtain ⟨b, hb, hm⟩ := hm
    obtain ⟨u, hu, e⟩ := charge_mounted (i := i) d hb hm
    have hput : TableKept s (putBobbin (drawnBy d s.settings.lowMark b) s) :=
      putBobbin_table (bobbinAt_mem hb) fun h => bobbinOk_drawnBy h ..
    rw [e]
    exact (hput.then hu.bobbins).then (by simp)
  · rw [charge_idle d fun b hb hn => hm ⟨b, hb, hn⟩]
    exact .refl s

theorem drawPositions_table (d t : Nat) (ps : List Pos) :
    ∀ acc : State × Nat, TableKept acc.1 (ps.foldl (drawPosition d t) acc).1 := by
  have position (acc : State × Nat) (i : Pos) : TableKept acc.1 (drawPosition d t acc i).1 := by
    unfold drawPosition
    extract_lets s sum r
    have h1 : TableKept s { s with residues := s.residues.set i (sum % 1000) } := .of_eq rfl
    exact h1.trans (charge_table staC0 (.closer i) (sum / 1000) _)
  induction ps with
  | nil => exact fun acc => .refl _
  | cons i ps ih => exact fun acc => (position acc i).trans (ih _)

theorem takeUpDraw_table (d : Nat) (s : State) : TableKept s (takeUpDraw d s) := by
  unfold takeUpDraw
  split
  · next r _ =>
    extract_lets out
    have hout : TableKept s out.1 := drawPositions_table d r.takeUp r.positions (s, 0)
    exact hout.then (coilShortfall_bobbins ..)
  · exact .refl s

theorem chargeFeed_table (l : Loom) (f : Feed) (mm : Nat) (s : State) : TableKept s (chargeFeed l f mm s) :=
  (charge_table (loomSta l) (.feed l f) (mm * 1000) s).then (modLoom_bobbins ..)

theorem chargeTwine_table (l : Loom) (c : NetLot) (s : State) : TableKept s (chargeTwine l c s) :=
  ((chargeFeed_table ..).trans (chargeFeed_table ..)).then (modLot_bobbins ..)

/-! ## The requests that write bobbins -/

/-- An owner keeps the table where every answer it gives does. -/
theorem table_ite {c : Prop} [Decidable c] {s : State} {a b : Served} (ha : c → TableKept s a.1)
    (hb : ¬c → TableKept s b.1) : TableKept s (if c then a else b).1 := by
  split
  · next h => exact ha h
  · next h => exact hb h

theorem insertBobbin_mem {b x : Bobbin} {bs : List Bobbin} (h : x ∈ insertBobbin b bs) : x = b ∨ x ∈ bs := by
  unfold insertBobbin at h
  rcases List.mem_append.mp h with h | h
  · exact .inr (List.takeWhile_subset _ h)
  · rcases List.mem_cons.mp h with h | h
    · exact .inl h
    · exact .inr (List.dropWhile_subset _ h)

/-- In a table in ascending id order the records below an id come first. -/
theorem takeWhile_dropWhile_id {n : Nat} {bs : List Bobbin} (hbs : bs.Pairwise fun x y => x.id < y.id) :
    bs.takeWhile (fun x => x.id < n) = bs.filter (fun x => x.id < n) ∧
      bs.dropWhile (fun x => x.id < n) = bs.filter (fun x => n ≤ x.id) := by
  induction bs with
  | nil => exact ⟨rfl, rfl⟩
  | cons x xs ih =>
    obtain ⟨hx, hxs⟩ := List.pairwise_cons.mp hbs
    obtain ⟨htake, hdrop⟩ := ih hxs
    by_cases h : x.id < n
    · simp [h, htake, hdrop]
    · have hno : xs.filter (fun y => y.id < n) = [] := List.filter_eq_nil_iff.mpr fun y hy => by
        have := hx y hy
        simp; omega
      have hall : xs.filter (fun y => n ≤ y.id) = xs := List.filter_eq_self.mpr fun y hy => by
        have := hx y hy
        simp; omega
      simp [h, hno, hall, Nat.not_lt.mp h]

/-- A record of a new id goes between those below and those above it. -/
theorem insertBobbin_eq {b : Bobbin} {bs : List Bobbin} (hbs : bs.Pairwise fun x y => x.id < y.id)
    (hb : ∀ x ∈ bs, x.id ≠ b.id) :
    insertBobbin b bs = bs.filter (fun x => x.id < b.id) ++ b :: bs.filter (fun x => b.id < x.id) := by
  have habove : bs.filter (fun x => b.id ≤ x.id) = bs.filter (fun x => b.id < x.id) :=
    List.filter_congr fun x hx => by
      have := hb x hx
      simp; omega
  obtain ⟨htake, hdrop⟩ := takeWhile_dropWhile_id (n := b.id) hbs
  unfold insertBobbin
  rw [htake, hdrop, habove]

theorem insertBobbin_pairwise {b : Bobbin} {bs : List Bobbin} (hbs : bs.Pairwise fun x y => x.id < y.id)
    (hb : ∀ x ∈ bs, x.id ≠ b.id) : (insertBobbin b bs).Pairwise fun x y => x.id < y.id := by
  rw [insertBobbin_eq hbs hb, List.pairwise_append, List.pairwise_cons]
  refine ⟨hbs.filter _, ⟨fun y hy => ?_, hbs.filter _⟩, fun x hx y hy => ?_⟩
  · simpa using (List.mem_filter.mp hy).2
  · have hxb : x.id < b.id := by simpa using (List.mem_filter.mp hx).2
    rcases List.mem_cons.mp hy with rfl | hy
    · exact hxb
    · exact hxb.trans (by simpa using (List.mem_filter.mp hy).2)

theorem insertBobbin_length (b : Bobbin) (bs : List Bobbin) : (insertBobbin b bs).length = bs.length + 1 := by
  have h := congrArg List.length (List.takeWhile_append_dropWhile (p := fun x : Bobbin => decide (x.id < b.id)) (l := bs))
  rw [List.length_append] at h
  unfold insertBobbin
  rw [List.length_append, List.length_cons]
  omega

theorem bobbin?_eq_none {s : State} {n : Nat} : s.bobbin? n = none ↔ ∀ b ∈ s.bobbins, b.id ≠ n := by
  simp [State.bobbin?, List.find?_eq_none]

/-- A record at registration is in order (R84). -/
theorem bobbinOk_fresh {id : BitVec 16} (h : id.toNat ≠ 0) (capacity : Nat) :
    BobbinOk (.fresh id.toNat (clampNat Config.capacityMin Config.capacityMax capacity)) := by
  have hid := id.isLt
  have hcap := clampNat_bounds (lo := Config.capacityMin) (hi := Config.capacityMax) (by decide) capacity
  refine ⟨Nat.one_le_iff_ne_zero.mpr h, Nat.le_of_lt_succ hid, hcap.1, hcap.2, Nat.le_refl _, ?_, fun _ => Len.zero_total⟩
  show Len.zero.total ≤ _
  rw [Len.zero_total]
  exact Nat.zero_le _

theorem serveBobbinRegister_table (bobbin : BitVec 16) (capacity : BitVec 32) (s : State) :
    TableKept s (serveBobbinRegister bobbin capacity s).1 := by
  unfold serveBobbinRegister
  refine table_ite (fun _ => .refl s) fun hid => table_ite (fun _ => .refl s) fun hnew =>
    table_ite (fun _ => .refl s) fun hroom => ⟨fun ⟨_, hids, hok⟩ => ⟨?_, ?_, fun x hx => ?_⟩⟩
  · show (insertBobbin _ _).length ≤ 64
    rw [insertBobbin_length]
    exact Nat.not_le.mp hroom
  · exact insertBobbin_pairwise hids (bobbin?_eq_none.mp (Option.not_isSome_iff_eq_none.mp hnew))
  · rcases insertBobbin_mem hx with rfl | hx
    · exact bobbinOk_fresh hid _
    · exact hok x hx

theorem serveBobbinRemove_table (bobbin : BitVec 16) (s : State) : TableKept s (serveBobbinRemove bobbin s).1 := by
  unfold serveBobbinRemove
  split
  · exact .refl s
  · refine table_ite (fun _ => ⟨fun ⟨hlen, hids, hok⟩ => ⟨?_, hids.filter _, fun x hx => ?_⟩⟩) fun _ => .refl s
    · exact (List.length_filter_le ..).trans hlen
    · exact hok x (List.mem_of_mem_filter hx)

theorem issueBobbin_table {i : Strander} {b : Bobbin} {l : Lot} {c : StrandLot} {s : State} (hb : b ∈ s.bobbins)
    (hst : b.state = .spare) : TableKept s (issueBobbin i b l c s) := by
  unfold issueBobbin
  extract_lets s1 s2
  have h1 : s1.bobbins = s.bobbins := addStart_bobbins ..
  have h2 : TableKept s1 s2 :=
    putBobbin_table (b := b) (by rwa [h1]) fun h => bobbinOk_restate h rfl rfl rfl rfl fun _ => .inl hst
  exact ((TableKept.of_eq h1).trans h2).then (removeCause_bobbins ..)

theorem serveBobbinIssue_table (station : Byte) (bobbin : BitVec 16) (s : State) :
    TableKept s (serveBobbinIssue station bobbin s).1 := by
  unfold serveBobbinIssue
  split
  · exact .refl s
  · split
    · exact .refl s
    · next b hb =>
      refine table_ite (fun _ => .refl s) fun hst => ?_
      split
      · exact .refl s
      · refine table_ite (fun _ => .refl s) fun _ => table_ite (fun _ => .refl s) fun _ => ?_
        split
        · exact issueBobbin_table (bobbin?_mem hb) (not_not.mp hst)
        · exact .refl s

theorem doffBobbin_table {b : Bobbin} {s : State} (hb : b ∈ s.bobbins) (hst : b.state = .winding) :
    TableKept s (doffBobbin b s) := by
  unfold doffBobbin
  split
  · extract_lets s1
    have h1 : TableKept s s1 :=
      putBobbin_table hb fun h => bobbinOk_restate h rfl rfl rfl rfl fun _ => .inr (.inl hst)
    refine h1.then ?_
    cases b.lot <;> simp
  · extract_lets s1
    have h1 : TableKept s s1 := putBobbin_table hb fun h =>
      bobbinOk_empty h rfl rfl rfl (bobbinOk_drawn_zero (b := b) h (.inr (.inl hst)))
    refine h1.then ?_
    cases b.lot <;> simp

theorem serveBobbinDoff_table (station : Byte) (s : State) : TableKept s (serveBobbinDoff station s).1 := by
  unfold serveBobbinDoff
  split
  · exact .refl s
  · refine table_ite (fun _ => .refl s) fun _ => ?_
    split
    · next b hb => exact table_ite (fun hst => doffBobbin_table (bobbinAt_mem hb) hst) fun _ => .refl s
    · exact .refl s

theorem mountBobbin_table {i : Sta} {pl : Place} {b : Bobbin} {s : State} (hb : b ∈ s.bobbins) :
    TableKept s (mountBobbin i pl b s) := by
  unfold mountBobbin
  extract_lets low s1 s2 s3
  have h1 : TableKept s s1 := putBobbin_table hb fun h => bobbinOk_restate h rfl rfl rfl rfl (by simp)
  have h2 : s2.bobbins = s1.bobbins := by
    unfold s2
    split <;> rfl
  have h3 : s3.bobbins = s2.bobbins := by
    unfold s3 warnLow
    split <;> simp
  exact (h1.then (h3.trans h2)).then (by simp)

theorem serveBobbinMount_table (station place : Byte) (bobbin : BitVec 16) (s : State) :
    TableKept s (serveBobbinMount station place bobbin s).1 := by
  unfold serveBobbinMount
  split
  · exact .refl s
  · split
    · exact .refl s
    · split
      · exact .refl s
      · next b hb =>
        split
        · exact .refl s
        · exact table_ite (fun _ => .refl s) fun _ => table_ite (fun _ => .refl s) fun _ => table_ite (fun _ => .refl s)
            fun _ => table_ite (fun _ => .refl s) fun _ => table_ite (fun _ => .refl s) fun _ =>
              mountBobbin_table (bobbin?_mem hb)

theorem serveBobbinDismount_table (station place : Byte) (s : State) : TableKept s (serveBobbinDismount station place s).1 := by
  unfold serveBobbinDismount
  split
  · exact .refl s
  · split
    · exact .refl s
    · split
      · exact .refl s
      · next b hb =>
        refine table_ite (fun _ => .refl s) fun _ => putBobbin_table (bobbinAt_mem hb) fun h =>
          bobbinOk_restate h rfl rfl rfl rfl ?_
        dsimp only
        split <;> simp

theorem serveBobbinReturn_table (bobbin : BitVec 16) (s : State) : TableKept s (serveBobbinReturn bobbin s).1 := by
  unfold serveBobbinReturn
  split
  · exact .refl s
  · next b hb =>
    exact table_ite (fun _ => putBobbin_table (bobbin?_mem hb) fun h => bobbinOk_empty h rfl rfl rfl Len.zero_total)
      fun _ => .refl s

/-! ## The requests that draw -/

theorem rowAnswer_bobbins (l : Loom) (taken : Nat) (d : Directive) (o : Option RowOrder) (s : State) :
    (rowAnswer l taken d o s).1.bobbins = s.bobbins := rfl

theorem takeReport_table (l : Loom) (c : NetLot) (knots : BitVec 256) (s : State) :
    TableKept s (takeReport l c knots s).1 := by
  unfold takeReport
  extract_lets i taken hold s1 s2
  have h1 : TableKept s (compareKnots l knots s1) := .of_eq ((compareKnots_bobbins ..).trans (modLoom_bobbins ..))
  have h2 : TableKept s s2 := (h1.trans (chargeTwine_table l c _)).then (taper_bobbins ..)
  clear_value s2
  refine h2.trans ?_
  split
  · refine table_ite (fun _ => ?_) fun _ => ?_
    · exact .of_eq ((rowAnswer_bobbins ..).trans (moveTo_bobbins ..))
    · exact .of_eq ((rowAnswer_bobbins ..).trans (stopOrNext_bobbins ..))
  · refine table_ite (fun _ => ?_) fun _ => ?_
    · exact .of_eq ((rowAnswer_bobbins ..).trans (moveTo_bobbins ..))
    · exact .of_eq ((rowAnswer_bobbins ..).trans ((attemptPanel_bobbins ..).trans (finishPanel_bobbins ..)))

theorem serveRowReport_table (station : Byte) (row : BitVec 24) (knots : BitVec 256) (s : State) :
    TableKept s (serveRowReport station row knots s).1 := by
  unfold serveRowReport
  split
  · exact .refl s
  · extract_lets q
    split
    · exact .refl s
    · refine table_ite (fun _ => table_ite (fun _ => takeReport_table ..) fun _ => .refl s) fun _ => ?_
      split
      · exact table_ite (fun _ => .refl s) fun _ => .refl s
      · exact .refl s

/-! ## The requests that write no bobbin -/

theorem serveFaultClear_table (p : Port) (station : Byte) (s : State) : TableKept s (serveFaultClear p station s).1 := by
  have hfold (is : List Sta) : TableKept s (is.foldl (fun s i => clearFaults i s) s) :=
    .of_eq (foldl_bobbins s (fun _ _ => clearFaults_bobbins ..) is)
  unfold serveFaultClear
  extract_lets kept run
  refine table_ite (fun _ => table_ite (fun _ => .refl s) fun _ => hfold _) fun _ => ?_
  split
  · exact hfold _
  · exact .refl s

theorem serveStationBind_table (p : Port) (station : Byte) (s : State) : TableKept s (serveStationBind p station s).1 := by
  unfold serveStationBind
  split
  · exact .refl s
  · split
    · exact .of_eq rfl
    · exact table_ite (fun _ => .refl s) fun _ => table_ite (fun _ => .refl s) fun _ => .of_eq (offer_bobbins ..)

theorem serveStationUnbind_table (station : Byte) (s : State) : TableKept s (serveStationUnbind station s).1 := by
  unfold serveStationUnbind
  split
  · exact .refl s
  · exact table_ite (fun _ => .refl s) fun _ => .of_eq rfl

theorem serveLotCreate_table (lot : BitVec 16) (kind : Byte) (s : State) : TableKept s (serveLotCreate lot kind s).1 := by
  unfold serveLotCreate
  dsimp only
  split
  · exact .refl s
  · refine table_ite (fun _ => .refl s) fun _ => table_ite (fun _ => .refl s) fun _ => ?_
    split
    · exact .refl s
    · exact .of_eq (raise_bobbins ..)

theorem serveLotWrite_table (lot : BitVec 16) (pairs : List (Byte × BitVec 32)) (s : State) :
    TableKept s (serveLotWrite lot pairs s).1 := by
  unfold serveLotWrite
  dsimp only
  split
  · exact .refl s
  · refine table_ite (fun _ => .refl s) fun _ => ?_
    split
    · exact .refl s
    · exact .of_eq (modLot_bobbins ..)

theorem serveLotCheck_table (lot value : BitVec 16) (s : State) : TableKept s (serveLotCheck lot value s).1 := by
  unfold serveLotCheck
  dsimp only
  split
  · exact .refl s
  · refine table_ite (fun _ => .refl s) fun _ => ?_
    split
    · exact .refl s
    · exact table_ite (fun _ => .of_eq ((moveLot_bobbins ..).trans (modLot_bobbins ..))) fun _ => .refl s

theorem serveLotReopen_table (lot : BitVec 16) (s : State) : TableKept s (serveLotReopen lot s).1 := by
  unfold serveLotReopen
  split
  · exact .refl s
  · exact table_ite (fun _ => .of_eq (moveLot_bobbins ..)) fun _ => .refl s

theorem serveLotHold_table (lot : BitVec 16) (s : State) : TableKept s (serveLotHold lot s).1 := by
  unfold serveLotHold
  split
  · exact .refl s
  · split
    · exact .of_eq ((raiseOnAll_bobbins ..).trans (moveLot_bobbins ..))
    · exact .refl s
    · exact .refl s

theorem serveLotResume_table (lot : BitVec 16) (s : State) : TableKept s (serveLotResume lot s).1 := by
  unfold serveLotResume
  split
  · exact .refl s
  · split
    · exact .of_eq ((removeFromAll_bobbins ..).trans (moveLot_bobbins ..))
    · exact .of_eq (removeFromAll_bobbins ..)
    · exact .of_eq (removeFromAll_bobbins ..)
    · exact .refl s

theorem serveLotClose_table (lot : BitVec 16) (s : State) : TableKept s (serveLotClose lot s).1 := by
  unfold serveLotClose
  split
  · exact .refl s
  · split
    · exact .refl s
    · exact .refl s
    · exact .of_eq ((closeArbor_bobbins ..).trans ((raiseOnAll_bobbins ..).trans (moveLot_bobbins ..)))

theorem serveLotDelete_table (lot : BitVec 16) (s : State) : TableKept s (serveLotDelete lot s).1 := by
  unfold serveLotDelete
  split
  · exact table_ite (fun _ => .of_eq (raise_bobbins ..)) fun _ => .refl s
  · exact .refl s

theorem serveLotAttach_table (station : Byte) (lot : BitVec 16) (s : State) : TableKept s (serveLotAttach station lot s).1 := by
  unfold serveLotAttach
  split
  · exact .refl s
  · refine table_ite (fun _ => .refl s) fun _ => ?_
    split
    · exact .refl s
    · exact table_ite (fun _ => .refl s) fun _ => table_ite (fun _ => .refl s) fun _ => table_ite (fun _ => .refl s)
        fun _ => table_ite (fun _ => .refl s) fun _ => .of_eq (attachLot_bobbins ..)

theorem serveLotDetach_table (station : Byte) (s : State) : TableKept s (serveLotDetach station s).1 := by
  unfold serveLotDetach
  split
  · exact .refl s
  · split
    · exact table_ite (fun _ => .refl s) fun _ => .of_eq (detachLot_bobbins ..)
    · exact .refl s

theorem runTwist_table (t : Twi) (s : State) : TableKept s (runTwist t s).1 := by
  have starts : TableKept s (startTwist t s) := .of_eq (startTwist_bobbins ..)
  unfold runTwist
  refine table_ite (fun _ => .refl s) fun _ => ?_
  split
  · split
    · exact table_ite (fun _ => starts) fun _ => .refl s
    · exact .refl s
  · refine table_ite (fun _ => ?_) fun _ => .refl s
    unfold runCloser
    refine table_ite (fun _ => .of_eq (startTwist_bobbins ..)) fun _ => ?_
    split
    · exact table_ite (fun _ => .of_eq ((startTwist_bobbins ..).trans (startCoil_bobbins ..))) fun _ => .refl s
    · exact .refl s

theorem runLoom_table (l : Loom) (s : State) : TableKept s (runLoom l s).1 := by
  unfold runLoom
  dsimp only
  refine table_ite (fun _ => .refl s) fun _ => table_ite (fun _ => .refl s) fun _ =>
    table_ite (fun _ => .of_eq (moveTo_bobbins ..)) fun _ => ?_
  split
  · next c _ _ => exact .of_eq ((moveTo_bobbins ..).trans (startPanel_bobbins s l c))
  · exact .refl s

theorem serveStationRun_table (station : Byte) (s : State) : TableKept s (serveStationRun station s).1 := by
  unfold serveStationRun
  split
  · exact .refl s
  · split
    · exact runTwist_table ..
    · exact runLoom_table ..
    · exact .refl s

theorem stopTwist_table (t : Twi) (s : State) : TableKept s (stopTwist t s).1 := by
  unfold stopTwist
  split
  · exact .of_eq (enterRunDown_bobbins ..)
  · exact .of_eq (enterRunDown_bobbins ..)
  · exact .refl s
  · exact .refl s

theorem stopLoom_table (l : Loom) (s : State) : TableKept s (stopLoom l s).1 := by
  unfold stopLoom
  dsimp only
  split
  · exact .of_eq (moveTo_bobbins ..)
  · exact .refl s
  · exact .refl s

theorem serveStationStop_table (station : Byte) (s : State) : TableKept s (serveStationStop station s).1 := by
  unfold serveStationStop
  split
  · exact .refl s
  · split
    · exact stopTwist_table ..
    · exact stopLoom_table ..
    · exact .refl s

theorem serveSegmentWrite_table (index : Byte) (rows : BitVec 16) (left right stepRows next : Byte) (s : State) :
    TableKept s (serveSegmentWrite index rows left right stepRows next s).1 := by
  unfold serveSegmentWrite
  split
  · extract_lets i
    split
    · exact table_ite (fun _ => .refl s) fun _ => .of_eq rfl
    · exact .refl s
  · exact .refl s

theorem replyAnswer_bobbins (l : Loom) (d : Directive) (o : Option RowOrder) (s : State) :
    (replyAnswer l d o s).1.bobbins = s.bobbins := rfl

theorem acceptRow_table (l : Loom) (s : State) : TableKept s (acceptRow l s).1 := by
  unfold acceptRow
  extract_lets i ended s1 s2 s3 r
  have h1 : s1.bobbins = s.bobbins := by
    unfold s1
    split
    · exact finishPanel_bobbins ..
    · rfl
  refine (TableKept.of_eq h1).trans (table_ite (fun _ => table_ite (fun _ => ?_) fun _ => ?_) fun _ => ?_)
  · exact .of_eq ((replyAnswer_bobbins ..).trans ((attemptPanel_bobbins ..).trans (moveTo_bobbins ..)))
  · exact .of_eq ((replyAnswer_bobbins ..).trans (moveTo_bobbins ..))
  · exact .of_eq ((replyAnswer_bobbins ..).trans (moveTo_bobbins ..))

theorem abandonRow_bobbins (l : Loom) (s : State) : (abandonRow l s).1.bobbins = s.bobbins := by
  unfold abandonRow
  exact (replyAnswer_bobbins ..).trans ((moveTo_bobbins ..).trans (rejectPanel_bobbins ..))

theorem serveRowReply_table (station value : Byte) (s : State) : TableKept s (serveRowReply station value s).1 := by
  unfold serveRowReply
  split
  · exact .refl s
  · exact table_ite (fun _ => .refl s) fun _ => table_ite (fun _ => .refl s) fun _ =>
      table_ite (fun _ => acceptRow_table ..) fun _ => .of_eq (abandonRow_bobbins ..)

theorem serveKnotFaultRead_table (station count : Byte) (s : State) : TableKept s (serveKnotFaultRead station count s).1 := by
  unfold serveKnotFaultRead
  split
  · exact .refl s
  · exact table_ite (fun _ => .refl s) fun _ => .of_eq rfl

theorem serveCoilerReport_table (station arbor report : Byte) (s : State) :
    TableKept s (serveCoilerReport station arbor report s).1 := by
  unfold serveCoilerReport
  split
  · refine table_ite (fun _ => .refl s) fun _ => table_ite (fun _ => .refl s) fun _ => table_ite (fun _ => ?_) fun _ => ?_
    · split
      · exact table_ite (fun _ => .of_eq (cutReport_bobbins ..)) fun _ => .refl s
      · exact .refl s
    · split
      · exact table_ite (fun _ => .refl s) fun _ => .of_eq (packReport_bobbins ..)
      · exact .refl s
  · exact .refl s

theorem serveTagLoad_table (count : Byte) (tags : Vector (BitVec 24) 8) (s : State) :
    TableKept s (serveTagLoad count tags s).1 := by
  unfold serveTagLoad
  dsimp only
  refine table_ite (fun _ => .refl s) fun _ => table_ite (fun _ => .refl s) fun _ => table_ite (fun _ => .refl s) fun _ =>
    table_ite (fun _ => .refl s) fun _ => ?_
  split
  · exact .of_eq (takeTag_bobbins ..)
  · exact .of_eq rfl

theorem serveCoilTake_table (s : State) : TableKept s (serveCoilTake s).1 := by
  unfold serveCoilTake
  split
  · exact .refl s
  · extract_lets k s1
    split
    · exact .of_eq ((freeArbor_bobbins ..).trans (postCoil_bobbins ..))
    · exact .of_eq rfl

theorem serveNoticeRead_table (p : Port) (count : Byte) (s : State) : TableKept s (serveNoticeRead p count s).1 :=
  table_ite (fun _ => .refl s) fun _ => .of_eq rfl

theorem serveRouteWrite_table (cls ports : Byte) (s : State) : TableKept s (serveRouteWrite cls ports s).1 := by
  unfold serveRouteWrite
  split
  · exact table_ite (fun _ => .refl s) fun _ => .of_eq rfl
  · exact .refl s

theorem serveAttnEnable_table (p : Port) (value : Byte) (s : State) : TableKept s (serveAttnEnable p value s).1 :=
  table_ite (fun _ => .of_eq rfl) fun _ => table_ite (fun _ => .of_eq rfl) fun _ => .refl s

theorem serveSettingsWrite_table (pairs : List (Byte × BitVec 32)) (s : State) :
    TableKept s (serveSettingsWrite pairs s).1 := by
  unfold serveSettingsWrite
  split
  · exact .refl s
  · exact table_ite (fun _ => .refl s) fun _ => .of_eq (settingsTaken_bobbins ..)

theorem serveCalWrite_table (pairs : List (Byte × BitVec 32)) (s : State) : TableKept s (serveCalWrite pairs s).1 := by
  unfold serveCalWrite
  split
  · exact .refl s
  · exact table_ite (fun _ => .refl s) fun _ => .of_eq (discardPending_bobbins ..)

theorem serveStoreCommit_table (p : Port) (s : State) : TableKept s (serveStoreCommit p s).1 :=
  table_ite (fun _ => .refl s) fun _ => .of_eq rfl

/-- Every request's owner keeps the table in order. -/
theorem owner_table (p : Port) (r : Request) (s : State) : TableKept s (owner p r s).1 := by
  have same {t : State} (h : t = s) : TableKept s t := h ▸ .refl s
  cases r with
  | stationRead => exact same (serveStationRead_eq ..)
  | faultClear => exact serveFaultClear_table ..
  | stationBind => exact serveStationBind_table ..
  | stationUnbind => exact serveStationUnbind_table ..
  | portStatus => exact .refl s
  | lotCreate => exact serveLotCreate_table ..
  | lotWrite => exact serveLotWrite_table ..
  | lotCheck => exact serveLotCheck_table ..
  | lotReopen => exact serveLotReopen_table ..
  | lotHold => exact serveLotHold_table ..
  | lotResume => exact serveLotResume_table ..
  | lotClose => exact serveLotClose_table ..
  | lotDelete => exact serveLotDelete_table ..
  | lotRead => exact same (serveLotRead_eq ..)
  | lotAttach => exact serveLotAttach_table ..
  | lotDetach => exact serveLotDetach_table ..
  | layRead => exact same (serveLayRead_eq ..)
  | stationRun => exact serveStationRun_table ..
  | stationStop => exact serveStationStop_table ..
  | bobbinRegister => exact serveBobbinRegister_table ..
  | bobbinRemove => exact serveBobbinRemove_table ..
  | bobbinIssue => exact serveBobbinIssue_table ..
  | bobbinDoff => exact serveBobbinDoff_table ..
  | bobbinMount => exact serveBobbinMount_table ..
  | bobbinDismount => exact serveBobbinDismount_table ..
  | bobbinReturn => exact serveBobbinReturn_table ..
  | bobbinRead => exact same (serveBobbinRead_eq ..)
  | feedRead => exact same (serveFeedRead_eq ..)
  | segmentWrite => exact serveSegmentWrite_table ..
  | segmentRead => exact same (serveSegmentRead_eq ..)
  | rowReport => exact serveRowReport_table ..
  | rowReply => exact serveRowReply_table ..
  | knotFaultRead => exact serveKnotFaultRead_table ..
  | loomRead => exact same (serveLoomRead_eq ..)
  | meterRead => exact .refl s
  | coilerReport => exact serveCoilerReport_table ..
  | tagLoad => exact serveTagLoad_table ..
  | coilTake => exact serveCoilTake_table s
  | coilerRead => exact same (serveCoilerRead_eq ..)
  | noticeRead => exact serveNoticeRead_table ..
  | routeWrite => exact serveRouteWrite_table ..
  | routeRead => exact .refl s
  | attnEnable => exact serveAttnEnable_table ..
  | settingsWrite => exact serveSettingsWrite_table ..
  | settingsRead => exact .refl s
  | calWrite => exact serveCalWrite_table ..
  | calRead => exact .refl s
  | storeCommit => exact serveStoreCommit_table ..

end Sys2Proof.Laws
end

section
/-! The bobbin table through every command, and the statement about steps (O56). -/

namespace Sys2Proof.Laws

open Sys2Proof.Machine Sys2Proof.Safety

/-! ## Ports -/

theorem checked_table (p : Port) (r : Request) (s : State) : TableKept s (checked p r s).1 := by
  unfold checked
  refine table_ite (fun _ => .refl s) fun _ => ?_
  split
  · exact table_ite (fun _ => owner_table ..) fun _ => .refl s
  · exact owner_table ..

theorem answerWith_bobbins (p : Port) (kind : Byte) (r : Served) : (answerWith p kind r).bobbins = r.1.bobbins := rfl

theorem takeRequest_table (p : Port) (r : Request) (s : State) : TableKept s (takeRequest p r s) :=
  (checked_table ..).then (answerWith_bobbins ..)

theorem takeFrame_table (p : Port) (f : Frame) (s : State) : TableKept s (takeFrame p f s) := by
  unfold takeFrame
  split
  · exact .of_eq rfl
  · exact takeRequest_table ..

theorem arrive_table (p : Port) (f : Frame) (take : State → State) (s : State) (h : ∀ s, TableKept s (take s)) :
    TableKept s (arrive p f take s) := by
  have harr : TableKept s (validArrival p s) := .of_eq (validArrival_bobbins ..)
  unfold arrive
  dsimp only
  split
  · exact harr.trans (h _)
  · exact harr.then rfl

theorem requestArrives_table (p : Port) (r : Request) (s : State) : TableKept s (requestArrives p r s) := by
  refine .ite fun _ => ?_
  split
  · exact .of_eq rfl
  · exact arrive_table _ _ _ _ fun s => takeRequest_table p r s

theorem frameArrives_table (p : Port) (f : Frame) (s : State) : TableKept s (frameArrives p f s) := by
  refine .ite fun _ => ?_
  split
  · exact .of_eq rfl
  · exact arrive_table _ _ _ _ fun s => takeFrame_table p f s

theorem receiveByte_table (p : Port) (b : Byte) (s : State) : TableKept s (receiveByte p b s) := by
  unfold receiveByte
  split
  · exact .ite fun _ => .of_eq rfl
  · exact .of_eq rfl
  · split
    · exact .of_eq rfl
    · split <;> exact .of_eq rfl
  · split <;> exact .of_eq rfl
  · split
    · have hhunt : TableKept s (s.setPort p { s.port p with asm := .hunt }) := .of_eq rfl
      exact hhunt.trans (frameArrives_table ..)
    · exact .of_eq rfl

theorem receiveBroken_bobbins (p : Port) (s : State) : (receiveBroken p s).bobbins = s.bobbins := by
  unfold receiveBroken
  split <;> rfl

theorem takeHeld_table (p : Port) (s : State) : TableKept s (takeHeld p s) := by
  unfold takeHeld
  split
  · have hnone : TableKept s (s.setPort p { s.port p with held := none }) := .of_eq rfl
    exact hnone.trans (takeFrame_table ..)
  · exact .refl s

/-! ## Pulses and stillness -/

theorem useCap_table (t : Twi) (d : Nat) (s : State) : TableKept s (useCap t d s) := by
  unfold useCap
  split
  · exact windBobbin_table ..
  · extract_lets s1
    have h1 : TableKept s s1 := .of_eq rfl
    split
    · exact (h1.trans (takeUpDraw_table ..)).then (meterCap_bobbins ..)
    · exact (h1.then (meterCap_bobbins ..)).trans (takeUpDraw_table ..)

theorem capEdge_table (t : Twi) (s : State) : TableKept s (capEdge t s) :=
  (TableKept.of_eq ((layCap_bobbins ..).trans (accumulate_bobbins ..))).trans (useCap_table ..)

theorem countedEdge_table (c : Chan) (s : State) : TableKept s (countedEdge c s) := by
  unfold countedEdge
  split
  · extract_lets t
    split
    · exact .of_eq (flyEdge_bobbins ..)
    · exact capEdge_table ..
  · exact .of_eq (wheelEdge_bobbins s)

theorem acceptLevel_table (c : Chan) (level : Bool) (s : State) : TableKept s (acceptLevel c level s) := by
  have hset (r : Channel) : TableKept s (s.setChannel c r) := .of_eq rfl
  unfold acceptLevel
  dsimp only
  split
  · exact (hset _).trans (countedEdge_table ..)
  · exact hset _

theorem rawChange_table (c : Chan) (level : Bool) (s : State) : TableKept s (rawChange c level s) := by
  have hset (r : Channel) : TableKept s (s.setChannel c r) := .of_eq rfl
  unfold rawChange
  dsimp only
  split
  · exact (hset _).trans (acceptLevel_table ..)
  · split <;> exact .of_eq rfl

theorem becomeStill_table (t : Twi) (s : State) : TableKept s (becomeStill t s) := by
  have filled (u : State) : TableKept u (endFillOf t u) := by
    unfold endFillOf
    split
    · exact endFill_table ..
    · exact .refl u
  have moved (w : Twist) (i : Sta) (st : RunState) (d : BitVec 16) : TableKept s (changeState i st d (s.setTwist t w)) :=
    .of_eq (changeState_bobbins ..)
  unfold becomeStill
  dsimp only
  split
  · exact (moved ..).trans (filled _)
  · exact moved ..
  · exact moved ..
  · exact .refl s

/-! ## Supply loss, line reset and starts -/

theorem stopAll_table (c : Cause) (s : State) : TableKept s (stopAll c s) := by
  rw [stopAll_eq]
  exact (TableKept.of_eq (allStopped_bobbins s c)).trans (TableKept.foldl _ (fun s i => endFill_table i s) allStranders _)

theorem takeLineReset_table (s : State) : TableKept s (takeLineReset s) :=
  (stopAll_table .reset s).then (takeLineReset_lots s).2

/-- What every command keeps of the bobbins: the table and its saved copy. -/
def BobbinsKept (s t : State) : Prop := BobbinsOk s → BobbinsOk t

theorem TableKept.bobbins {s t : State} (h : TableKept s t) (hi : t.image = s.image) : BobbinsKept s t := fun ⟨h1, h2⟩ =>
  ⟨h.table h1, hi ▸ h2⟩

theorem bobbinTableOk_nil : BobbinTableOk [] := ⟨Nat.zero_le _, .nil, nofun⟩

theorem beginSave_table (s : State) : TableKept s (beginSave s) := (stopAll_table .power s).then (beginSave_lots s).2

theorem beginSave_image_bobbins (s : State) : (beginSave s).image.bobbins = (beginSave s).bobbins := by
  rw [beginSave_image]
  generalize beginSave s = u
  rfl

theorem beginSave_bobbinsKept (s : State) : BobbinsKept s (beginSave s) := by
  rintro ⟨htable, -⟩
  have hnew := (beginSave_table s).table htable
  unfold BobbinsOk
  rw [beginSave_image_bobbins]
  exact ⟨hnew, hnew⟩

theorem warmStart_bobbinsKept (s : State) : BobbinsKept s (warmStart s) := fun h => ⟨h.2, h.2⟩

theorem coldStart_bobbinsKept (s : State) : BobbinsKept s (coldStart s) := fun h => ⟨bobbinTableOk_nil, h.2⟩

/-! ## Every command -/

/-- What a running part does keeps the bobbins where it keeps the table and the image. -/
theorem whenRunning_bobbinsKept {f : State → State} {s t : State}
    (h : Host.Outcome.next (φ := Fault) (ρ := Refusal) (whenRunning f s) = .next t)
    (hf : TableKept s (f s) ∧ (f s).image = s.image) : BobbinsKept s t := by
  cases h
  unfold whenRunning
  split
  · exact hf.1.bobbins hf.2
  · exact id

theorem request_bobbinsKept {p : Port} {r : Request} {s t : State}
    (h : Host.Outcome.next (φ := Fault) (ρ := Refusal) (requestArrives p r s) = .next t) : BobbinsKept s t := by
  cases h
  exact (requestArrives_table p r s).bobbins (requestArrives_kept p r s).image

/-- A change beside the bobbins and the image. -/
theorem bobbinsKept_of_eq {s t : State} (h : t.bobbins = s.bobbins) (hi : t.image = s.image) : BobbinsKept s t :=
  (TableKept.of_eq h).bobbins hi

theorem execRawInputChange_bobbinsKept {c : Chan} {level : Bool} {s t : State} (h : execRawInputChange c level s = .next t) :
    BobbinsKept s t := by
  unfold execRawInputChange at h
  cases h
  split
  · exact id
  · split
    · exact (rawChange_table c level s).bobbins (rawChange_kept c level s).image
    · exact bobbinsKept_of_eq rfl rfl

theorem execStoreCommitCompletion_bobbinsKept {s t : State} (h : execStoreCommitCompletion s = .next t) : BobbinsKept s t := by
  refine whenRunning_bobbinsKept h ?_
  split
  · dsimp only
    split <;> exact ⟨.of_eq (raise_bobbins ..), (raise_frame ..).image⟩
  · exact ⟨.refl s, rfl⟩

theorem execByteGapExpiry_bobbinsKept {p : Port} {s t : State} (h : execByteGapExpiry p s = .next t) : BobbinsKept s t := by
  refine whenRunning_bobbinsKept h ?_
  split
  · exact ⟨.refl s, rfl⟩
  · exact ⟨.of_eq rfl, rfl⟩

theorem execAnswerComplete_bobbinsKept {p : Port} {s t : State} (h : execAnswerComplete p s = .next t) : BobbinsKept s t := by
  refine whenRunning_bobbinsKept h ?_
  split
  · next a _ =>
    have hgone (u : PortUnit) (us : Nat) : TableKept s ((s.advanceUs us).setPort p u) := .of_eq rfl
    exact ⟨(hgone ..).trans (takeHeld_table ..), (takeHeld_kept ..).image⟩
  · exact ⟨.refl s, rfl⟩

theorem execSilenceExpiry_bobbinsKept {p : Port} {s t : State} (h : execSilenceExpiry p s = .next t) : BobbinsKept s t := by
  refine whenRunning_bobbinsKept h ?_
  split
  · exact ⟨.of_eq (fallSilent_bobbins ..), (fallSilent_kept ..).image⟩
  · exact ⟨.refl s, rfl⟩

theorem execPendingChangeAccept_bobbinsKept {c : Chan} {s t : State} (h : execPendingChangeAccept c s = .next t) :
    BobbinsKept s t := by
  refine whenRunning_bobbinsKept h ?_
  split
  · have hclock (us : Nat) : TableKept s (s.advanceUs us) := .of_eq rfl
    exact ⟨(hclock _).trans (acceptLevel_table ..), (acceptLevel_kept ..).image⟩
  · exact ⟨.refl s, rfl⟩

theorem execWindowTimeLimitExpiry_bobbinsKept {t : Twi} {s u : State} (h : execWindowTimeLimitExpiry t s = .next u) :
    BobbinsKept s u := by
  refine whenRunning_bobbinsKept h ?_
  split
  · exact ⟨.of_eq (expireWindow_bobbins ..), (expireWindow_kept ..).image⟩
  · exact ⟨.refl s, rfl⟩

theorem execStillnessExpiry_bobbinsKept {t : Twi} {s u : State} (h : execStillnessExpiry t s = .next u) : BobbinsKept s u := by
  refine whenRunning_bobbinsKept h ?_
  split
  · have hstill (ms : Nat) (w : Twist) : TableKept s ((s.advanceMs ms).setTwist t w) := .of_eq rfl
    exact ⟨(hstill ..).trans (becomeStill_table ..), (becomeStill_kept ..).image⟩
  · exact ⟨.refl s, rfl⟩

theorem execRetryWaitExpiry_bobbinsKept {i : Sta} {s t : State} (h : execRetryWaitExpiry i s = .next t) : BobbinsKept s t := by
  refine whenRunning_bobbinsKept h ?_
  split
  · exact ⟨.of_eq rfl, rfl⟩
  · exact ⟨.refl s, rfl⟩

theorem execRunUpLong_bobbinsKept {t : Twi} {s u : State} (h : execRunUpLong t s = .next u) : BobbinsKept s u := by
  refine whenRunning_bobbinsKept h ?_
  split
  · exact ⟨.of_eq (longRunUp_bobbins ..), (longRunUp_kept ..).image⟩
  · exact ⟨.refl s, rfl⟩

theorem execRunDownLong_bobbinsKept {t : Twi} {s u : State} (h : execRunDownLong t s = .next u) : BobbinsKept s u := by
  refine whenRunning_bobbinsKept h ?_
  split
  · exact ⟨.of_eq (longRunDown_bobbins ..), (longRunDown_kept ..).image⟩
  · exact ⟨.refl s, rfl⟩

theorem execMarkPulseEnd_bobbinsKept {s t : State} (h : execMarkPulseEnd s = .next t) : BobbinsKept s t := by
  refine whenRunning_bobbinsKept h ?_
  split
  · exact ⟨.of_eq rfl, rfl⟩
  · exact ⟨.refl s, rfl⟩

theorem execSupplyLow_bobbinsKept {s t : State} (h : execSupplyLow s = .next t) : BobbinsKept s t := by
  unfold execSupplyLow at h
  cases h
  split
  · exact beginSave_bobbinsKept s
  · exact bobbinsKept_of_eq rfl rfl
  · exact bobbinsKept_of_eq rfl rfl
  · exact id

theorem execSaveComplete_bobbinsKept {s t : State} (h : execSaveComplete s = .next t) : BobbinsKept s t := by
  unfold execSaveComplete at h
  cases h
  split
  · split
    · exact warmStart_bobbinsKept { s with imageValid := true }
    · exact bobbinsKept_of_eq rfl rfl
  · exact id

theorem execSupplyRecovery_bobbinsKept {s t : State} (h : execSupplyRecovery s = .next t) : BobbinsKept s t := by
  unfold execSupplyRecovery at h
  cases h
  split
  · exact warmStart_bobbinsKept s
  · exact bobbinsKept_of_eq rfl rfl
  · exact bobbinsKept_of_eq rfl rfl
  · exact id

theorem execPowerUp_bobbinsKept {s t : State} (h : execPowerUp s = .next t) : BobbinsKept s t := by
  unfold execPowerUp at h
  cases h
  split
  · split
    · exact warmStart_bobbinsKept s
    · exact coldStart_bobbinsKept s
  · exact id

theorem execResetAssert_bobbinsKept {s t : State} (h : execResetAssert s = .next t) : BobbinsKept s t := by
  unfold execResetAssert at h
  cases h
  split
  · exact bobbinsKept_of_eq rfl rfl
  · exact id

theorem execLineReset_bobbinsKept {s t : State} (h : execLineReset s = .next t) : BobbinsKept s t := by
  refine whenRunning_bobbinsKept h ?_
  split
  · have hclock (us : Nat) : TableKept s (s.advanceUs us) := .of_eq rfl
    exact ⟨(hclock _).trans (takeLineReset_table _), (takeLineReset_kept _).image⟩
  · exact ⟨.refl s, rfl⟩

/-- Every command keeps the bobbin table and its saved copy in order. -/
theorem exec_bobbinsKept {c : Instr} {s t : State} (h : exec c s = .next t) : BobbinsKept s t := by
  cases c with
  | unknownRequest p kind payload =>
    cases h
    exact (frameArrives_table ..).bobbins (frameArrives_kept ..).image
  | byteReceived p b stop =>
    refine whenRunning_bobbinsKept h ?_
    split
    · exact ⟨receiveByte_table .., (receiveByte_kept ..).image⟩
    · exact ⟨.of_eq (receiveBroken_bobbins ..), (receiveBroken_kept ..).image⟩
  | byteGapExpiry => exact execByteGapExpiry_bobbinsKept h
  | answerComplete => exact execAnswerComplete_bobbinsKept h
  | silenceExpiry => exact execSilenceExpiry_bobbinsKept h
  | rawInputChange => exact execRawInputChange_bobbinsKept h
  | pendingChangeAccept => exact execPendingChangeAccept_bobbinsKept h
  | windowTimeLimitExpiry => exact execWindowTimeLimitExpiry_bobbinsKept h
  | stillnessExpiry => exact execStillnessExpiry_bobbinsKept h
  | retryWaitExpiry => exact execRetryWaitExpiry_bobbinsKept h
  | runUpLong => exact execRunUpLong_bobbinsKept h
  | runDownLong => exact execRunDownLong_bobbinsKept h
  | markPulseEnd => exact execMarkPulseEnd_bobbinsKept h
  | storeCommitCompletion => exact execStoreCommitCompletion_bobbinsKept h
  | supplyLow => exact execSupplyLow_bobbinsKept h
  | saveComplete => exact execSaveComplete_bobbinsKept h
  | supplyRecovery => exact execSupplyRecovery_bobbinsKept h
  | powerUp => exact execPowerUp_bobbinsKept h
  | powerFailure => cases h; exact bobbinsKept_of_eq rfl rfl
  | resetAssert => exact execResetAssert_bobbinsKept h
  | lineReset => exact execLineReset_bobbinsKept h
  | resetRelease => cases h; exact bobbinsKept_of_eq rfl rfl
  | _ => exact request_bobbinsKept h

end Sys2Proof.Laws

namespace Sys2Proof.Proofs

open Sys2Proof.Machine Sys2Proof.Safety Sys2Proof.Laws

/-- Settles O56: a tick leaves the bobbins, and every command keeps them in order. -/
theorem stepKeepsBobbinsOk : Obligations.StepKeepsBobbinsOk := by
  intro s t hs h
  unfold step at h
  split at h
  · cases h
    unfold State.tick
    split
    · exact hs
    · exact hs
  · exact exec_bobbinsKept h hs

end Sys2Proof.Proofs
end

section
/-! BOBBIN_REGISTER, BOBBIN_REMOVE and BOBBIN_RETURN (O37, O38). -/

namespace Sys2Proof.Laws

open Sys2Proof.Machine Sys2Proof.Safety

theorem bobbin?_isSome {s : State} {n : Nat} : (s.bobbin? n).isSome = true ↔ ∃ b ∈ s.bobbins, b.id = n := by
  rw [Option.isSome_iff_ne_none, Ne, bobbin?_eq_none]
  push Not
  rfl

theorem bobbin?_isSome_false {s : State} {n : Nat} (h : ∀ b ∈ s.bobbins, b.id ≠ n) : ¬(s.bobbin? n).isSome = true := fun hsome =>
  let ⟨b, hb, hid⟩ := bobbin?_isSome.mp hsome
  h b hb hid

theorem bobbin?_id {s : State} {n : Nat} {b : Bobbin} (h : s.bobbin? n = some b) : b.id = n := by
  simpa using List.find?_some h

theorem toNat_pos_of_ne_zero {n : BitVec 16} (h : n ≠ 0) : n.toNat ≠ 0 := fun h0 => h (BitVec.eq_of_toNat_eq h0)

end Sys2Proof.Laws

namespace Sys2Proof.Proofs

open Sys2Proof.Machine Sys2Proof.Safety Sys2Proof.Laws

/-- Settles O37: the refusals are the owner's in its order, and in an ordered table the new record stands between the lower
and the higher ids (`insertBobbin_eq`). -/
theorem registerMakesASpareBobbin : Obligations.RegisterMakesASpareBobbin := by
  intro p n capacity s hL
  have harr : Arrived s (validArrival p s) := validArrival_arrived p s
  have registers {code : Code} {u : State} (h : serveBobbinRegister n capacity (validArrival p s) = (u, code, []))
      (hu : Noticed (validArrival p s) u) : Answers p 0x30 code [] (.bobbinRegister p n capacity) s u :=
    answers_of_free (r := .bobbinRegister n capacity) hL rfl rfl rfl h hu
  unfold serveBobbinRegister at registers
  dsimp only at registers
  rw [harr.bobbin?, harr.bobbins, clampNat_eq (by decide)] at registers
  refine ⟨fun h0 => registers ?_ (.refl _), fun h0 hdup => registers ?_ (.refl _), fun h0 hnew hfull =>
    registers ?_ (.refl _), fun h0 hnew hroom hok => registers (u := _) ?_ (.of_ports rfl rfl)⟩
  · rw [h0]; rfl
  · rw [if_neg (toNat_pos_of_ne_zero h0), if_pos (bobbin?_isSome.mpr hdup)]; rfl
  · rw [if_neg (toNat_pos_of_ne_zero h0), if_neg (bobbin?_isSome_false hnew), if_pos (show Config.bobbinMax ≤ _ from hfull)]; rfl
  · obtain ⟨⟨-, hids, -⟩, -⟩ := hok
    rw [if_neg (toNat_pos_of_ne_zero h0), if_neg (bobbin?_isSome_false hnew),
      if_neg (show ¬Config.bobbinMax ≤ _ from Nat.not_le.mpr hroom), insertBobbin_eq hids hnew]
    rfl

/-- Settles O38: each owner looks at the record of the id and its state. -/
theorem removeAndReturn : Obligations.RemoveAndReturn := by
  intro p n s hL
  have harr : Arrived s (validArrival p s) := validArrival_arrived p s
  have removes {code : Code} {u : State} (h : serveBobbinRemove n (validArrival p s) = (u, code, []))
      (hu : Noticed (validArrival p s) u) : Answers p 0x31 code [] (.bobbinRemove p n) s u :=
    answers_of_free (r := .bobbinRemove n) hL rfl rfl rfl h hu
  have returns {code : Code} {u : State} (h : serveBobbinReturn n (validArrival p s) = (u, code, []))
      (hu : Noticed (validArrival p s) u) : Answers p 0x36 code [] (.bobbinReturn p n) s u :=
    answers_of_free (r := .bobbinReturn n) hL rfl rfl rfl h hu
  unfold serveBobbinRemove at removes
  unfold serveBobbinReturn at returns
  rw [harr.bobbin?] at removes returns
  refine ⟨fun b hb hst => removes ?_ (.of_ports rfl rfl), fun b hb hst => removes ?_ (.refl _), fun hno =>
    removes ?_ (.refl _), fun b hb hst => returns ?_ (.of_ports rfl rfl), fun b hb hp hsp => returns ?_ (.refl _), fun hno =>
    returns ?_ (.refl _)⟩
  · rw [hb, ← bobbin?_id hb]
    dsimp only
    rw [if_pos hst, harr.bobbins]
    rfl
  · rw [hb]
    exact if_neg hst
  · rw [bobbin?_eq_none.mpr hno]
    rfl
  · rw [hb]
    dsimp only
    rw [if_pos hst, putBobbin_eq, harr.bobbins]
    rfl
  · rw [hb]
    exact if_neg (not_or.mpr ⟨hp, hsp⟩)
  · rw [bobbin?_eq_none.mpr hno]
    rfl

end Sys2Proof.Proofs
end

section
/-! A draw on a place (O21). -/

namespace Sys2Proof.Laws

open Sys2Proof.Machine Sys2Proof.Safety

/-- What a MOUNTED bobbin has left after a draw of `x` µm. -/
def leftBy (x : Nat) (b : Bobbin) : Nat := b.wound.total - b.drawn.total - min x (b.wound.total - b.drawn.total)

/-- The bobbin's record after a draw, and BOBBIN_LOW as it takes its low mark (R96). -/
def drawTold (x : Nat) (b : Bobbin) (s : State) : State :=
  let charged : State := { s with bobbins := withBobbin (drawnBy x s.settings.lowMark b) s.bobbins }
  if decide (leftBy x b < s.settings.lowMark * 1000) && !b.low && !s.settings.disable.getLsbD 5 then
    raise .bobbin (.bobbin b.id) 0x504 charged
  else charged

theorem drawTold_frame (x : Nat) (b : Bobbin) (s : State) :
    NoticeFrame { s with bobbins := withBobbin (drawnBy x s.settings.lowMark b) s.bobbins } (drawTold x b s) := by
  unfold drawTold
  extract_lets charged
  split
  · exact raise_frame ..
  · exact .refl _

/-- A draw on a MOUNTED bobbin (R95): its record, its low mark, and its run-out. -/
def drained (i : Sta) (pl : Place) (x : Nat) (b : Bobbin) (s : State) : State :=
  if leftBy x b = 0 then raise .feed (.station i) pl.word (raiseCause i .feedOut (drawTold x b s)) else drawTold x b s

theorem drained_move (i : Sta) (pl : Place) (x : Nat) (b : Bobbin) (s : State) :
    MoveFrame { s with bobbins := withBobbin (drawnBy x s.settings.lowMark b) s.bobbins } (drained i pl x b s) := by
  have told := MoveFrame.ofNotice (drawTold_frame x b s)
  unfold drained
  split
  · exact (told.trans (raiseCause_move ..)).trans (.ofNotice (raise_frame ..))
  · exact told

theorem warnLow_eq (id : Nat) (s : State) :
    warnLow id s = if !s.settings.disable.getLsbD 5 then raise .bobbin (.bobbin id) 0x504 s else s := by
  show (if s.settings.disable.getLsbD 5 then _ else _) = _
  cases s.settings.disable.getLsbD 5 <;> rfl

theorem charge_eq {i : Sta} {pl : Place} {s : State} {b : Bobbin} (x : Nat) (hb : s.bobbinAt pl = some b)
    (hm : b.state = .mounted) :
    charge i pl x s = (drained i pl x b s, x - min x (b.wound.total - b.drawn.total)) := by
  unfold charge
  rw [hb]
  dsimp only
  rw [if_pos hm]
  have hleft : ({ b with drawn := Len.ofUm (b.drawn.total + min x b.remaining) } : Bobbin).remaining = leftBy x b := by
    unfold Bobbin.remaining leftBy
    dsimp only
    rw [Len.ofUm_total, ← Nat.sub_sub]
  rw [hleft]
  have hrecord : putBobbin
      { b with
        drawn := Len.ofUm (b.drawn.total + min x b.remaining)
        low := b.low || (decide (leftBy x b < s.settings.lowMark * 1000) && !b.low)
        state := if leftBy x b = 0 then .runOut else .mounted } s =
      { s with bobbins := withBobbin (drawnBy x s.settings.lowMark b) s.bobbins } := by
    have hlow : (b.low || (decide (leftBy x b < s.settings.lowMark * 1000) && !b.low)) =
        (b.low || decide (leftBy x b < s.settings.lowMark * 1000)) := by
      cases b.low <;> simp
    rw [hlow]
    rfl
  have htold : drawTold x b s =
      if decide (leftBy x b < s.settings.lowMark * 1000) && !b.low then
        warnLow b.id { s with bobbins := withBobbin (drawnBy x s.settings.lowMark b) s.bobbins }
      else { s with bobbins := withBobbin (drawnBy x s.settings.lowMark b) s.bobbins } := by
    unfold drawTold
    rw [warnLow_eq]
    cases decide (leftBy x b < s.settings.lowMark * 1000) && !b.low <;> rfl
  unfold drained
  simp only [hrecord, htold, beq_iff_eq]
  rfl

theorem drained_bobbins (i : Sta) (pl : Place) (x : Nat) (b : Bobbin) (s : State) :
    (drained i pl x b s).bobbins = withBobbin (drawnBy x s.settings.lowMark b) s.bobbins := (drained_move i pl x b s).bobbins

theorem drawTold_station (x : Nat) (b : Bobbin) (s : State) (j : Sta) : (drawTold x b s).station j = s.station j :=
  (drawTold_frame x b s).station j

theorem drained_station_ne {i j : Sta} (pl : Place) (x : Nat) (b : Bobbin) (s : State) (hj : j ≠ i) (hi : i ≠ staK0) :
    (drained i pl x b s).station j = s.station j := by
  unfold drained
  split
  · rw [(raise_frame ..).station, raiseCause_station_ne _ _ _ _ hj (.inr hi), drawTold_station]
  · exact drawTold_station ..

theorem drained_feedOut {i : Sta} {pl : Place} {x : Nat} {b : Bobbin} {s : State} (hout : leftBy x b = 0)
    (hi : i = staC0 ∨ i = loomSta 0 ∨ i = loomSta 1) : hasCause ((drained i pl x b s).station i).causes .feedOut = true := by
  unfold drained
  rw [if_pos hout, (raise_frame ..).station]
  exact raiseCause_has_self (by rcases hi with rfl | rfl | rfl <;> rfl)

theorem drained_of_left {i : Sta} {pl : Place} {x : Nat} {b : Bobbin} {s : State} (h : 0 < leftBy x b) :
    drained i pl x b s = drawTold x b s := if_neg h.ne'

end Sys2Proof.Laws

namespace Sys2Proof.Proofs

open Sys2Proof.Machine Sys2Proof.Safety Sys2Proof.Laws

/-- Settles O21: a draw on a MOUNTED bobbin is `drained` (`charge_eq`), and nothing else gives. -/
theorem drawsAreConserved : Obligations.DrawsAreConserved := by
  intro i pl d s r
  refine ⟨charge_idle d, ?_⟩
  intro b hb hm hle take left drawn
  have hr : r = (drained i pl d b s, d - take) := charge_eq d hb hm
  have htotal : drawn.total = b.drawn.total + take := Len.ofUm_total _
  have htake : take ≤ d := Nat.min_le_left ..
  rw [hr]
  refine ⟨rfl, ?_, ?_, drained_bobbins .., ?_, fun hpos => ?_, drained_feedOut, fun j hj hi => drained_station_ne _ _ _ _ hj hi⟩
  · rw [htotal]
    omega
  · have hframe := (drained_move i pl d b s).1
    rw [← drained_bobbins i pl d b s] at hframe
    exact hframe
  · rw [drained_bobbins]
    rfl
  · rw [drained_of_left hpos]
    have hframe := (drawTold_frame d b s).1
    exact ⟨by rw [hframe], by rw [hframe]⟩

end Sys2Proof.Proofs
end

section
/-! BOBBIN_MOUNT and BOBBIN_DISMOUNT (O40). -/

namespace Sys2Proof.Laws

open Sys2Proof.Machine Sys2Proof.Safety

/-! ## Places of a station (R82) -/

theorem placeOf_cases {i : Sta} {code : Byte} {pl : Place} (h : placeOf i code = some pl) :
    (i = staC0 ∧ ∃ x, pl = .closer x) ∨ ∃ m f, i = loomSta m ∧ pl = .feed m f := by
  unfold placeOf at h
  split at h
  · next hi =>
    split at h
    · cases h
      exact .inl ⟨hi, _, rfl⟩
    · cases h
  · split at h
    · next m hm =>
      have hloom : i = loomSta m := by revert hm; clear * -; revert i m; decide
      split at h
      · cases h
        exact .inr ⟨m, _, hloom, rfl⟩
      · split at h
        · cases h
          exact .inr ⟨m, _, hloom, rfl⟩
        · cases h
    · cases h

theorem placeOf_ne_coiler {i : Sta} {code : Byte} {pl : Place} (h : placeOf i code = some pl) : i ≠ staK0 := by
  rcases placeOf_cases h with ⟨rfl, -⟩ | ⟨m, f, rfl, -⟩
  · decide
  · clear * -; revert m; decide

/-- The fourth place of C0 is not one of a lot of three strands. -/
theorem fourth_unused {s : State} {c : RopeLot} (h : s.rope = some c) (hc : c.strands = 3) :
    Place.closer 3 ∉ usedPlaces staC0 s := by
  rw [usedPlaces_closer h, List.mem_map]
  rintro ⟨j, hj, e⟩
  cases e
  rw [mem_positions, hc] at hj
  exact absurd hj (by decide)

/-! ## The owner's checks -/

theorem serveBobbinMount_noPlace {i : Sta} {code : Byte} {n : BitVec 16} {s : State} (h : placeOf i code = none) :
    serveBobbinMount (staByte i) code n s = refuse .outOfRange s := by
  unfold serveBobbinMount
  rw [staOf_staByte]
  dsimp only
  rw [h]

theorem serveBobbinDismount_noPlace {i : Sta} {code : Byte} {s : State} (h : placeOf i code = none) :
    serveBobbinDismount (staByte i) code s = refuse .outOfRange s := by
  unfold serveBobbinDismount
  rw [staOf_staByte]
  dsimp only
  rw [h]

theorem serveBobbinMount_noBobbin {i : Sta} {code : Byte} {pl : Place} {n : BitVec 16} {s : State}
    (h : placeOf i code = some pl) (hb : s.bobbin? n.toNat = none) :
    serveBobbinMount (staByte i) code n s = refuse .notFound s := by
  unfold serveBobbinMount
  rw [staOf_staByte]
  dsimp only
  rw [h]
  dsimp only
  rw [hb]

theorem serveBobbinMount_noLot {i : Sta} {code : Byte} {pl : Place} {n : BitVec 16} {b : Bobbin} {s : State}
    (h : placeOf i code = some pl) (hb : s.bobbin? n.toNat = some b) (hl : s.lotOf i = none) :
    serveBobbinMount (staByte i) code n s = refuse .wrongState s := by
  unfold serveBobbinMount
  rw [staOf_staByte]
  dsimp only
  rw [h]
  dsimp only
  rw [hb]
  dsimp only
  rw [hl]

/-- The checks of a mount of a bobbin on a place, for the station's lot (R89). -/
theorem serveBobbinMount_eq {i : Sta} {code : Byte} {pl : Place} {n : BitVec 16} {b : Bobbin} {l : Lot} {s : State}
    (h : placeOf i code = some pl) (hb : s.bobbin? n.toNat = some b) (hl : s.lotOf i = some l) :
    serveBobbinMount (staByte i) code n s =
      if pl ∉ usedPlaces i s then refuse .outOfRange s
      else if b.state ≠ .full ∧ b.state ≠ .part then refuse .wrongState s
      else if (s.bobbinAt pl).isSome then refuse .wrongState s
      else if b.lot ≠ some l.build.strandLot then refuse .wrongLot s
      else if i = staC0 ∧ b.dir = l.build.ropeDir then refuse .wrongLot s
      else answerOk (mountBobbin i pl b s) := by
  unfold serveBobbinMount
  rw [staOf_staByte]
  dsimp only
  rw [h]
  dsimp only
  rw [hb]
  dsimp only
  rw [hl]

theorem serveBobbinDismount_eq {i : Sta} {code : Byte} {pl : Place} {s : State} (h : placeOf i code = some pl) :
    serveBobbinDismount (staByte i) code s =
      match s.bobbinAt pl with
      | none => refuse .wrongState s
      | some b =>
        if stationRuns i s then refuse .wrongState s
        else answerOk { s with
          bobbins := withBobbin { b with place := none, state := if b.state = .runOut then .spent else .part } s.bobbins } := by
  unfold serveBobbinDismount
  rw [staOf_staByte]
  dsimp only
  rw [h]
  rfl

theorem Arrived.stationRuns {s a : State} (h : Arrived s a) (i : Sta) : stationRuns i a = Machine.stationRuns i s := by
  rw [h]; rfl

theorem Arrived.residues {s a : State} (h : Arrived s a) : a.residues = s.residues := by rw [h]

/-! ## The mount, step by step (R90) -/

/-- `t` is `s` but for the bobbins, the residues, the coiling unit and what notices touch. -/
def MountFrame (s t : State) : Prop :=
  t = { s with
    ports := t.ports, queues := t.queues, bobbins := t.bobbins, residues := t.residues, coiler := t.coiler }

/-- BOBBIN_LOW of a bobbin that is mounted below the low-remnant mark. -/
def lowTold (low : Bool) (id : Nat) (s : State) : State :=
  if low = true ∧ s.settings.disable.getLsbD 5 = false then raise .bobbin (.bobbin id) 0x504 s else s

theorem lowTold_frame (low : Bool) (id : Nat) (s : State) : NoticeFrame s (lowTold low id s) := by
  unfold lowTold
  split
  · exact raise_frame ..
  · exact .refl s

theorem lowTold_eq (low : Bool) (id : Nat) (s : State) : (if low then warnLow id s else s) = lowTold low id s := by
  unfold lowTold
  rw [warnLow_eq]
  cases low <;> cases s.settings.disable.getLsbD 5 <;> rfl

theorem lowTold_residues (low : Bool) (id : Nat) (s : State) (x : Vector Nat 4) :
    lowTold low id { s with residues := x } = { lowTold low id s with residues := x } := by
  unfold lowTold
  split
  · rw [raise_of_offers (s := s) (t := { s with residues := x }) ⟨rfl, rfl, rfl, rfl, fun _ => rfl⟩, (raise_frame .bobbin (.bobbin id) 0x504 s).1]
  · rfl

/-- The coiling unit as the winding coil takes a bobbin's id (R98). -/
def listing (id : Nat) (s : State) : Coiler :=
  match s.windingArbor with
  | some arbor =>
    match s.arbor arbor with
    | .busy ph c => s.coiler.setArbor arbor (.busy ph (c.addBobbin id))
    | .free => s.coiler
  | none => s.coiler

theorem listOnCoil_closer (id : Nat) (s : State) : listOnCoil staC0 id s = { s with coiler := listing id s } := by
  unfold listOnCoil listing modCoil
  rw [if_pos rfl]
  cases s.windingArbor with
  | none => rfl
  | some arbor =>
    dsimp only
    cases s.arbor arbor <;> rfl

theorem listing_congr {s t : State} (h : t.coiler = s.coiler) (id : Nat) : listing id t = listing id s := by
  unfold listing
  rw [windingArbor_congr h, h]
  simp only [arbor_congr h]

/-- FEED_OUT ends once every place in use is MOUNTED, and the station moves by R7. -/
def restored (i : Sta) (s u : State) : State :=
  if hasCause (s.station i).causes .feedOut = true ∧
      (∀ x ∈ usedPlaces i s, ∃ y, { s with bobbins := u.bobbins }.bobbinAt x = some y ∧ y.state = .mounted) then
    writeStation i (emptied i ((s.station i).causes &&& 0xFBF) (s.station i)) (raise .feed (.station i) 0x406 u)
  else u

theorem restored_of_bobbins {i : Sta} {s u : State} {bs : List Bobbin} (h : u.bobbins = bs) :
    restored i s u =
      if hasCause (s.station i).causes .feedOut = true ∧
          (∀ x ∈ usedPlaces i s, ∃ y, { s with bobbins := bs }.bobbinAt x = some y ∧ y.state = .mounted) then
        writeStation i (emptied i ((s.station i).causes &&& 0xFBF) (s.station i)) (raise .feed (.station i) 0x406 u)
      else u := by
  rw [← h]
  rfl

theorem restored_noticed (i : Sta) (s u : State) : Noticed u (restored i s u) := by
  unfold restored
  split
  · exact (Noticed.of_notice (raise_frame ..)).trans (writeStation_noticed ..)
  · exact .refl u

theorem restoreFeed_eq {i : Sta} (hi : i ≠ staK0) {s u : State} (hu : MountFrame s u) : restoreFeed i u = restored i s u := by
  have hsta : u.station i = s.station i := by rw [hu]; rfl
  have hmounted : feedsMounted i u = true ↔
      ∀ x ∈ usedPlaces i s, ∃ y, { s with bobbins := u.bobbins }.bobbinAt x = some y ∧ y.state = .mounted := by
    rw [feedsMounted_iff, hu]
    rfl
  have hhas : u.has i .feedOut = true ↔ hasCause (s.station i).causes .feedOut = true := by
    unfold State.has; rw [hsta]
  have hmove : settle i (raise .feed (.station i) wordFeedRestored (dropCause i .feedOut u)) =
      writeStation i (emptied i ((s.station i).causes &&& 0xFBF) (s.station i)) (raise .feed (.station i) 0x406 u) := by
    rw [dropCause_eq (c := .feedOut) nofun, raise_setStation (s := u) (by rfl), settle_eq_settleOne _ _ hi, ← hsta,
      ← (raise_frame .feed (.station i) wordFeedRestored u).station, settleOne_setStation]
    rfl
  unfold restoreFeed restored
  rw [hmove]
  exact if_congr (and_congr hhas hmounted) rfl rfl

/-- A bobbin's low mark as it is mounted. -/
def mountsLow (b : Bobbin) (s : State) : Bool := decide (b.wound.total - b.drawn.total < s.settings.lowMark * 1000)

/-- A bobbin at its place, with its low mark and BOBBIN_LOW. -/
def mountTold (pl : Place) (b : Bobbin) (s : State) : State :=
  lowTold (mountsLow b s) b.id
    { s with bobbins := withBobbin { b with state := .mounted, place := some pl, low := mountsLow b s } s.bobbins }

theorem mountTold_frame (pl : Place) (b : Bobbin) (s : State) :
    NoticeFrame
      { s with bobbins := withBobbin { b with state := .mounted, place := some pl, low := mountsLow b s } s.bobbins }
      (mountTold pl b s) :=
  lowTold_frame ..

theorem mountBobbin_feed {i : Sta} {m : Loom} {f : Feed} {b : Bobbin} {s : State} (hi : i ≠ staC0) :
    mountBobbin i (.feed m f) b s = restoreFeed i (mountTold (.feed m f) b s) := by
  unfold mountBobbin listOnCoil
  dsimp only
  rw [if_neg hi, lowTold_eq]
  rfl

theorem mountBobbin_closer (x : Pos) (b : Bobbin) (s : State) :
    mountBobbin staC0 (.closer x) b s =
      restoreFeed staC0
        { mountTold (.closer x) b s with residues := s.residues.set x 0, coiler := listing b.id s } := by
  have hcoiler : (mountTold (.closer x) b s).coiler = s.coiler := by rw [(mountTold_frame ..).1]
  unfold mountBobbin
  extract_lets low s1 s2 s3
  have hs1 : s1 = { s with
      bobbins := withBobbin { b with state := .mounted, place := some (.closer x), low := mountsLow b s } s.bobbins } := rfl
  have told : mountTold (.closer x) b s = lowTold low b.id s1 := rfl
  have hs2 : s2 = { s1 with residues := s.residues.set x 0 } := rfl
  have hs3 : s3 = { lowTold low b.id s1 with residues := s.residues.set x 0 } := by
    unfold s3
    rw [lowTold_eq, hs2, lowTold_residues]
  have hlisting : listing b.id s3 = listing b.id s := listing_congr (by rw [hs3, ← told]; exact hcoiler) _
  rw [listOnCoil_closer, hlisting, hs3]
  rfl

/-- A mount on what a frame's arrival leaves. -/
theorem mountTold_arrived {s a : State} (h : Arrived s a) (pl : Place) (b : Bobbin) :
    mountTold pl b a =
      if mountsLow b s = true ∧ s.settings.disable.getLsbD 5 = false then
        raise .bobbin (.bobbin b.id) 0x504
          { a with bobbins := withBobbin { b with state := .mounted, place := some pl, low := mountsLow b s } s.bobbins }
      else { a with bobbins := withBobbin { b with state := .mounted, place := some pl, low := mountsLow b s } s.bobbins } := by
  unfold mountTold lowTold mountsLow
  rw [h.settings, h.bobbins]

theorem mountTold_bobbins {s a : State} (h : Arrived s a) (pl : Place) (b : Bobbin) :
    (mountTold pl b a).bobbins = withBobbin { b with state := .mounted, place := some pl, low := mountsLow b s } s.bobbins := by
  rw [(mountTold_frame ..).1]
  unfold mountsLow
  rw [h.settings, h.bobbins]

theorem mountTold_noticed (pl : Place) (b : Bobbin) (s : State) : Noticed s (mountTold pl b s) :=
  (Noticed.of_ports (a := s) (u := { s with bobbins := withBobbin _ s.bobbins }) rfl rfl).trans (.of_notice (mountTold_frame ..))

theorem mountTold_mount {s a : State} (h : Arrived s a) (pl : Place) (b : Bobbin) (r : Vector Nat 4) (k : Coiler) :
    MountFrame s { mountTold pl b a with residues := r, coiler := k } := by
  have hframe := (mountTold_frame pl b a).1
  generalize mountTold pl b a = u at hframe ⊢
  rw [hframe, h]
  rfl

end Sys2Proof.Laws

namespace Sys2Proof.Proofs

open Sys2Proof.Machine Sys2Proof.Safety Sys2Proof.Laws

/-- Settles O40: the owners' checks in their order, and the steps of a mount by `mountBobbin_feed`, `mountBobbin_closer`
and `restoreFeed_eq`. -/
theorem mountAndDismount : Obligations.MountAndDismount := by
  refine ⟨fun p i code n s hL hS hpl => ⟨?_, ?_⟩, fun p i code pl s hL hS hpl => ?_⟩
  · exact answers_of_steered (r := .bobbinMount (staByte i) code n) hL hS rfl rfl rfl (serveBobbinMount_noPlace hpl) (.refl _)
  · exact answers_of_steered (r := .bobbinDismount (staByte i) code) hL hS rfl rfl rfl (serveBobbinDismount_noPlace hpl)
      (.refl _)
  intro r a
  have harr : Arrived s a := validArrival_arrived p s
  have hi : i ≠ staK0 := placeOf_ne_coiler hpl
  have mounts {n : BitVec 16} {code' : Code} {u : State} (h : serveBobbinMount (staByte i) code n a = (u, code', []))
      (hu : Noticed a u) : Answers p 0x34 code' [] (.bobbinMount p (staByte i) code n) s u :=
    answers_of_steered (r := .bobbinMount (staByte i) code n) hL hS rfl rfl rfl h hu
  have dismounts {code' : Code} {u : State} (h : serveBobbinDismount (staByte i) code a = (u, code', []))
      (hu : Noticed a u) : Answers p 0x35 code' [] (.bobbinDismount p (staByte i) code) s u :=
    answers_of_steered (r := .bobbinDismount (staByte i) code) hL hS rfl rfl rfl h hu
  have hdismount := serveBobbinDismount_eq (s := a) hpl
  rw [harr.bobbinAt, harr.stationRuns, harr.bobbins] at hdismount
  refine ⟨fun n => ⟨fun hnone => ?_, fun hsome hlot => ?_, fun k l c hsome hl hr hc hthree hfour => ?_⟩,
    fun n b k l hb hl hr hused => ?_, fun h => ?_, fun b hb hrun => ?_⟩
  · exact mounts (serveBobbinMount_noBobbin hpl ((harr.bobbin? _).trans hnone)) (.refl _)
  · obtain ⟨b, hb⟩ := Option.ne_none_iff_exists'.mp hsome
    refine mounts (serveBobbinMount_noLot hpl ((harr.bobbin? _).trans hb) ?_) (.refl _)
    unfold State.lotOf
    rw [harr.station, show (s.station i).lot = none from hlot]
    rfl
  · obtain ⟨b, hb⟩ := Option.ne_none_iff_exists'.mp hsome
    have hlot : s.lotOf i = some l := lotOf_eq_some hr hl
    refine mounts ((serveBobbinMount_eq hpl ((harr.bobbin? _).trans hb) ((harr.lotOf i).trans hlot)).trans ?_) (.refl _)
    have hi0 : i = staC0 := by
      rcases placeOf_cases hpl with ⟨h, -⟩ | ⟨m, f, -, h⟩
      · exact h
      · rw [hfour] at h; cases h
    subst hi0 hfour
    rw [harr.usedPlaces]
    exact if_pos (fourth_unused (rope_eq_some hlot hc) hthree)
  · have hserve := serveBobbinMount_eq hpl ((harr.bobbin? _).trans hb) ((harr.lotOf i).trans (lotOf_eq_some hr hl))
    rw [harr.usedPlaces, if_neg (not_not.mpr hused), harr.bobbinAt] at hserve
    refine ⟨fun h => mounts (hserve.trans ?_) (.refl _), fun hst hfree hwrong => mounts (hserve.trans ?_) (.refl _),
      fun hst hfree hright hi0 hdir => mounts (hserve.trans ?_) (.refl _), ?_⟩
    · by_cases hst : b.state ≠ .full ∧ b.state ≠ .part
      · exact if_pos hst
      · rw [if_neg hst]
        exact if_pos (Option.isSome_iff_ne_none.mpr (h.resolve_left hst))
    · rw [if_neg (by tauto), hfree, if_neg (by simp)]
      exact if_pos hwrong
    · rw [if_neg (by tauto), hfree, if_neg (by simp), if_neg (not_not.mpr hright)]
      exact if_pos ⟨hi0, hdir⟩
    · intro hst hfree hright hdir low bs told restored'
      rw [if_neg (by tauto), hfree, if_neg (by simp), if_neg (not_not.mpr hright), if_neg (by tauto)] at hserve
      have htold : told { a with bobbins := bs } = mountTold pl b a := (mountTold_arrived harr pl b).symm
      refine ⟨fun m f hfeed => ?_, fun x hcloser => ?_⟩
      · have hne : i ≠ staC0 := by
          rcases placeOf_cases hpl with ⟨-, x, h⟩ | ⟨m', -, h, -⟩
          · rw [hfeed] at h; cases h
          · rw [h]; clear * -; revert m'; decide
        have hmount : mountBobbin i pl b a = restored i s (mountTold pl b a) := by
          rw [hfeed, mountBobbin_feed hne, restoreFeed_eq hi (mountTold_mount harr ..)]
        have hans := mounts hserve (by rw [hmount]; exact (mountTold_noticed ..).trans (restored_noticed ..))
        rw [hmount, restored_of_bobbins (mountTold_bobbins harr ..)] at hans
        rw [htold]
        exact hans
      · have hi0 : i = staC0 := by
          rcases placeOf_cases hpl with ⟨h, -⟩ | ⟨m, f, -, h⟩
          · exact h
          · rw [hcloser] at h; cases h
        have hmount : mountBobbin i pl b a =
            restored i s { mountTold pl b a with residues := s.residues.set x 0, coiler := listing b.id s } := by
          rw [hcloser, hi0, mountBobbin_closer, restoreFeed_eq (by decide) (mountTold_mount harr ..),
            listing_congr harr.coiler, harr.residues]
        have hbeside : Noticed a { mountTold pl b a with residues := s.residues.set x 0, coiler := listing b.id s } :=
          (mountTold_noticed pl b a).trans (.of_ports rfl rfl)
        have hans := mounts hserve (by rw [hmount]; exact hbeside.trans (restored_noticed ..))
        have hbs : { mountTold pl b a with residues := s.residues.set x 0, coiler := listing b.id s }.bobbins = bs :=
          mountTold_bobbins harr ..
        rw [hmount, restored_of_bobbins hbs] at hans
        rw [htold]
        exact hans
  · refine dismounts (hdismount.trans ?_) (.refl _)
    rcases h with h | h
    · rw [h]
      rfl
    · rw [h]
      split
      · rfl
      · exact if_pos rfl
  · rw [hb] at hdismount
    exact dismounts (hdismount.trans (if_neg (by rw [hrun]; exact Bool.false_ne_true))) (.of_ports rfl rfl)

end Sys2Proof.Proofs
end

section
/-! Operations that neither read nor write a loom's position: what they do to a state does not depend on it. -/

namespace Sys2Proof.Laws

open Sys2Proof.Machine Sys2Proof.Safety

/-! ## Moves and causes (R1 to R6) -/

theorem moveTo_setLoom (i : Sta) (st : RunState) (s : State) (m : Loom) (q : LoomPos) :
    moveTo i st (s.setLoom m q) = (moveTo i st s).setLoom m q := by
  rw [moveTo_eq_writeStation, State.setLoom_station, writeStation_setLoom, ← moveTo_eq_writeStation]

theorem enterRunDown_setLoom (t : Twi) (s : State) (m : Loom) (q : LoomPos) :
    enterRunDown t (s.setLoom m q) = (enterRunDown t s).setLoom m q := by
  have htwist (w : Twist) : (s.setLoom m q).setTwist t w = (s.setTwist t w).setLoom m q := rfl
  unfold enterRunDown
  dsimp only
  rw [htwist, moveTo_setLoom]
  rfl

theorem haltMove_setLoom (i : Sta) (s : State) (m : Loom) (q : LoomPos) :
    haltMove i (s.setLoom m q) = (haltMove i s).setLoom m q := by
  unfold haltMove
  rw [State.setLoom_station]
  split
  case h_5 | h_6 =>
    split
    · exact enterRunDown_setLoom ..
    · rfl
  case h_7 | h_8 | h_9 => rfl
  all_goals exact moveTo_setLoom ..

theorem raiseOne_setLoom (i : Sta) (c : Cause) (s : State) (m : Loom) (q : LoomPos) :
    raiseOne i c (s.setLoom m q) = (raiseOne i c s).setLoom m q := by
  have hadd : addCause i c (s.setLoom m q) = (addCause i c s).setLoom m q := rfl
  have hhas : (s.setLoom m q).has i c = s.has i c := rfl
  unfold raiseOne
  rw [hhas, hadd, raise_setLoom, haltMove_setLoom]
  exact (apply_ite (fun u : State => u.setLoom m q) _ _ _).symm

theorem raiseCause_setLoom (i : Sta) (c : Cause) (s : State) (m : Loom) (q : LoomPos) :
    raiseCause i c (s.setLoom m q) = (raiseCause i c s).setLoom m q := by
  unfold raiseCause coilerHalted
  rw [raiseOne_setLoom, raiseOne_setLoom]
  exact (apply_ite (fun u : State => u.setLoom m q) _ _ _).symm

theorem raiseOnAll_setLoom (set : BitSet 8) (c : Cause) (s : State) (m : Loom) (q : LoomPos) :
    raiseOnAll set c (s.setLoom m q) = (raiseOnAll set c s).setLoom m q := by
  unfold raiseOnAll
  generalize allStations = is
  induction is generalizing s with
  | nil => rfl
  | cons i is ih =>
    rw [List.foldl_cons, List.foldl_cons, raiseCause_setLoom]
    split
    · exact ih _
    · exact ih _

/-! ## A draw (R95) -/

theorem drawTold_setLoom (x : Nat) (b : Bobbin) (s : State) (m : Loom) (q : LoomPos) :
    drawTold x b (s.setLoom m q) = (drawTold x b s).setLoom m q := by
  show (if _ then raise _ _ _ ((s.setBobbins _).setLoom m q) else (s.setBobbins _).setLoom m q) = _
  rw [raise_setLoom]
  exact (apply_ite (fun u : State => u.setLoom m q) _ _ _).symm

theorem drained_setLoom (i : Sta) (pl : Place) (x : Nat) (b : Bobbin) (s : State) (m : Loom) (q : LoomPos) :
    drained i pl x b (s.setLoom m q) = (drained i pl x b s).setLoom m q := by
  unfold drained
  rw [drawTold_setLoom, raiseCause_setLoom, raise_setLoom]
  exact (apply_ite (fun u : State => u.setLoom m q) _ _ _).symm

theorem charge_setLoom (i : Sta) (pl : Place) (x : Nat) (s : State) (m : Loom) (q : LoomPos) :
    charge i pl x (s.setLoom m q) = ((charge i pl x s).1.setLoom m q, (charge i pl x s).2) := by
  have hat : (s.setLoom m q).bobbinAt pl = s.bobbinAt pl := bobbinAt_congr rfl pl
  by_cases h : ∃ b, s.bobbinAt pl = some b ∧ b.state = .mounted
  · obtain ⟨b, hb, hm⟩ := h
    rw [charge_eq x hb hm, charge_eq x (hat.trans hb) hm, drained_setLoom]
  · have hno (b : Bobbin) (hb : s.bobbinAt pl = some b) : b.state ≠ .mounted := fun hm => h ⟨b, hb, hm⟩
    rw [charge_idle x hno, charge_idle x fun b hb => hno b (hat.symm.trans hb)]

/-- What a draw leaves: everything but bobbins, moves and notices. -/
theorem charge_move (i : Sta) (pl : Place) (x : Nat) (s : State) :
    ∃ bs, MoveFrame { s with bobbins := bs } (charge i pl x s).1 := by
  by_cases h : ∃ b, s.bobbinAt pl = some b ∧ b.state = .mounted
  · obtain ⟨b, hb, hm⟩ := h
    rw [charge_eq x hb hm]
    exact ⟨_, drained_move ..⟩
  · rw [charge_idle x fun b hb hm => h ⟨b, hb, hm⟩]
    exact ⟨s.bobbins, .refl s⟩

end Sys2Proof.Laws
end

section
/-! The steps of a taken row report (R114 to R116): comparison, twine and taper. -/

namespace Sys2Proof.Laws

open Sys2Proof.Machine Sys2Proof.Safety

/-! ## The comparison (R114) -/

/-- A needle with a knot fault: expected and not sensed, or the reverse. -/
def rowFaulty (q : LoomPos) (knots : BitVec 256) (needles n : Nat) : Bool := q.expects n != sensed knots needles n

theorem missedNeedles_length (q : LoomPos) (knots : BitVec 256) (needles : Nat) :
    (missedNeedles q knots needles).length =
      (List.range 256).countP fun n => rowFaulty q knots needles n && decide (q.first ≤ n) && decide (n ≤ q.last) := by
  unfold missedNeedles allNeedles
  rw [← List.countP_eq_length_filter]
  refine List.countP_congr fun n _ => ?_
  unfold rowFaulty
  rw [Bool.and_assoc]
  show _ ↔ (_ && q.expects n) = true
  cases q.expects n <;> cases sensed knots needles n <;> decide

theorem strayNeedles_length (q : LoomPos) (knots : BitVec 256) (needles : Nat) :
    (strayNeedles q knots needles).length =
      (List.range 256).countP fun n => rowFaulty q knots needles n && !(decide (q.first ≤ n) && decide (n ≤ q.last)) := by
  unfold strayNeedles allNeedles
  rw [← List.countP_eq_length_filter]
  refine List.countP_congr fun n _ => ?_
  unfold rowFaulty
  show _ ↔ (_ && !q.expects n) = true
  cases q.expects n <;> cases sensed knots needles n <;> decide

/-- Every faulty needle is missed or stray. -/
theorem faultCount_eq (q : LoomPos) (knots : BitVec 256) (needles : Nat) :
    faultCount q knots needles = (allNeedles.filter (rowFaulty q knots needles)).length := by
  have hsplit := List.countP_eq_countP_filter_add (List.range 256) (rowFaulty q knots needles) q.expects
  rw [List.countP_filter, List.countP_filter] at hsplit
  unfold faultCount
  rw [missedNeedles_length, strayNeedles_length, ← List.countP_eq_length_filter]
  refine Eq.trans ?_ hsplit.symm
  refine congrArg₂ (· + ·) (List.countP_congr fun n _ => ?_) (List.countP_congr fun n _ => Iff.rfl)
  rw [Bool.and_assoc]
  rfl

theorem faultyNeedles_eq (q : LoomPos) (knots : BitVec 256) (needles : Nat) :
    (allNeedles.filter fun n => (missedNeedles q knots needles).contains n || (strayNeedles q knots needles).contains n) =
      allNeedles.filter (rowFaulty q knots needles) := by
  refine List.filter_congr fun n hn => ?_
  have hmissed : (missedNeedles q knots needles).contains n = (q.expects n && !sensed knots needles n) := by
    rw [Bool.eq_iff_iff, List.contains_iff_mem, missedNeedles, List.mem_filter]
    exact and_iff_right hn
  have hstray : (strayNeedles q knots needles).contains n = (sensed knots needles n && !q.expects n) := by
    rw [Bool.eq_iff_iff, List.contains_iff_mem, strayNeedles, List.mem_filter]
    exact and_iff_right hn
  rw [hmissed, hstray]
  unfold rowFaulty
  cases q.expects n <;> cases sensed knots needles n <;> rfl

/-- The knot fault entry of a row: one, with its first faulty needle, or none. -/
def faultEntries (q : LoomPos) (knots : BitVec 256) (needles : Nat) : List KnotFault :=
  (((List.range 256).find? (rowFaulty q knots needles)).map fun n =>
    { panel := q.panel, row := q.row, missed := (missedNeedles q knots needles).length
      stray := (strayNeedles q knots needles).length, needle := n }).toList

/-- A position after the comparison. -/
def faulted (q : LoomPos) (knots : BitVec 256) (needles : Nat) : LoomPos :=
  { q with
    faults := if q.faults.length < 16 then q.faults ++ faultEntries q knots needles else q.faults
    overflow := q.overflow || decide (0 < faultCount q knots needles ∧ 16 ≤ q.faults.length) }

/-- The KNOT notice of a row with `n` faults. -/
def knotTold (m : Loom) (n : Nat) (s : State) : State :=
  if n = 0 then s else raise .knot (.station (loomSta m)) (BitVec.ofNat 16 n) s

theorem knotTold_frame (m : Loom) (n : Nat) (s : State) : NoticeFrame s (knotTold m n s) := by
  unfold knotTold
  split
  · exact .refl s
  · exact raise_frame ..

theorem faulted_clean {q : LoomPos} {knots : BitVec 256} {needles : Nat}
    (h : allNeedles.filter (rowFaulty q knots needles) = []) : faulted q knots needles = q := by
  have hfind : (List.range 256).find? (rowFaulty q knots needles) = none := by
    rw [← List.head?_filter]
    exact congrArg List.head? h
  unfold faulted faultEntries
  rw [faultCount_eq, h, hfind]
  simp

theorem faulted_faulty {q : LoomPos} {knots : BitVec 256} {needles n : Nat} {ns : List Nat}
    (h : allNeedles.filter (rowFaulty q knots needles) = n :: ns) :
    faulted q knots needles =
      if q.faults.length < Config.faultMax then
        { q with
          faults := q.faults ++
            [{ panel := q.panel, row := q.row, missed := (missedNeedles q knots needles).length
               stray := (strayNeedles q knots needles).length, needle := n }] }
      else { q with overflow := true } := by
  have hfind : (List.range 256).find? (rowFaulty q knots needles) = some n := by
    rw [← List.head?_filter]
    exact congrArg List.head? h
  have hpos : 0 < faultCount q knots needles := by
    rw [faultCount_eq, h]
    exact Nat.succ_pos _
  have hmax : Config.faultMax = 16 := rfl
  unfold faulted faultEntries
  rw [hfind, hmax]
  by_cases hlen : q.faults.length < 16
  · rw [if_pos hlen, if_pos hlen, decide_eq_false fun h => Nat.not_le.mpr hlen h.2, Bool.or_false]
    rfl
  · rw [if_neg hlen, if_neg hlen, decide_eq_true ⟨hpos, Nat.not_lt.mp hlen⟩, Bool.or_true]

theorem compareKnots_eq (m : Loom) (knots : BitVec 256) (s : State) (q : LoomPos) :
    compareKnots m knots (s.setLoom m q) =
      (knotTold m (faultCount q knots (s.needles m)) s).setLoom m (faulted q knots (s.needles m)) := by
  have hneedles : (s.setLoom m q).needles m = s.needles m := rfl
  unfold compareKnots
  dsimp only
  rw [State.setLoom_loom_self, hneedles, faultyNeedles_eq]
  cases h : allNeedles.filter (rowFaulty q knots (s.needles m)) with
  | nil =>
    unfold knotTold
    rw [faultCount_eq, h, faulted_clean h]
    rfl
  | cons n ns =>
    have hpos : faultCount q knots (s.needles m) ≠ 0 := by
      rw [faultCount_eq, h]
      exact Nat.succ_ne_zero _
    unfold knotTold modLoom
    dsimp only
    rw [if_neg hpos, faulted_faulty h, State.setLoom_loom_self, setLoom_setLoom, raise_setLoom]
    rfl

/-! ## The twine (R115) -/

/-- The upper feed's draw of a row, and the lower feed's after it. -/
def upperDraw (m : Loom) (c : NetLot) (q : LoomPos) (s : State) : State × Nat :=
  charge (loomSta m) (.feed m .upper) ((rowDraw q c + 1) / 2 * 1000) s

def lowerDraw (m : Loom) (c : NetLot) (q : LoomPos) (s : State) : State × Nat :=
  charge (loomSta m) (.feed m .lower) (rowDraw q c / 2 * 1000) (upperDraw m c q s).1

theorem MoveFrame.setBobbins {s t : State} (h : MoveFrame s t) (bs : List Bobbin) :
    MoveFrame { s with bobbins := bs } { t with bobbins := bs } := by
  obtain ⟨heq, hports, hstations, htwists⟩ := h
  refine ⟨?_, hports, hstations, htwists⟩
  conv => lhs; rw [heq]

theorem MoveFrame.segment {s t : State} (h : MoveFrame s t) {j : SegIx} : t.segment j = s.segment j := by
  rw [h.1]
  rfl

theorem MoveFrame.needles {s t : State} (h : MoveFrame s t) {m : Loom} : t.needles m = s.needles m := by
  unfold State.needles
  rw [h.settings]

theorem setLot_needles (s : State) (k : Slot) (o : Option Lot) (m : Loom) : (s.setLot k o).needles m = s.needles m := rfl

theorem lowerDraw_move (m : Loom) (c : NetLot) (q : LoomPos) (s : State) :
    ∃ bs, MoveFrame { s with bobbins := bs } (lowerDraw m c q s).1 := by
  obtain ⟨_, hupper⟩ := charge_move (loomSta m) (.feed m .upper) ((rowDraw q c + 1) / 2 * 1000) s
  obtain ⟨bs, hlower⟩ := charge_move (loomSta m) (.feed m .lower) (rowDraw q c / 2 * 1000) (upperDraw m c q s).1
  exact ⟨bs, (hupper.setBobbins bs).trans hlower⟩

/-- A lot with one more row. -/
def rowCounted (l : Lot) : Lot := { l with rows := min 4294967295 (l.rows + 1) }

theorem chargeFeed_eq (m : Loom) (f : Feed) (mm : Nat) (s : State) (q : LoomPos) :
    chargeFeed m f mm (s.setLoom m q) =
      (charge (loomSta m) (.feed m f) (mm * 1000) s).1.setLoom m
        { q with shortfall := q.shortfall.add (charge (loomSta m) (.feed m f) (mm * 1000) s).2 } := by
  unfold chargeFeed modLoom
  rw [charge_setLoom]
  dsimp only
  rw [State.setLoom_loom_self, setLoom_setLoom]

theorem chargeTwine_eq {m : Loom} {c : NetLot} {s : State} {k : Slot} {l : Lot} (hl : HasLot s k l)
    (hi : (s.station (loomSta m)).lot = some l.number) (q : LoomPos) :
    chargeTwine m c (s.setLoom m q) =
      ((lowerDraw m c q s).1.setLot k (some (rowCounted l))).setLoom m
        { q with shortfall := (q.shortfall.add (upperDraw m c q s).2).add (lowerDraw m c q s).2 } := by
  obtain ⟨bs, hmove⟩ := lowerDraw_move m c q s
  have hlot : HasLot (lowerDraw m c q s).1 k l := HasLot.congr hl hmove.lots
  have hsta : ((lowerDraw m c q s).1.station (loomSta m)).lot = some l.number := (hmove.lot _).trans hi
  have hdraws : chargeFeed m .lower (rowDraw q c / 2) (chargeFeed m .upper ((rowDraw q c + 1) / 2) (s.setLoom m q)) =
      (lowerDraw m c q s).1.setLoom m
        { q with shortfall := (q.shortfall.add (upperDraw m c q s).2).add (lowerDraw m c q s).2 } := by
    rw [chargeFeed_eq, chargeFeed_eq]
    rfl
  have hnumber (x : LoomPos) : ((lowerDraw m c q s).1.setLoom m x).loomLot m = l.number := loomLot_eq hsta
  have hcount (x : LoomPos) : HasLot ((lowerDraw m c q s).1.setLoom m x) k l := HasLot.congr hlot rfl
  unfold chargeTwine
  dsimp only
  rw [State.setLoom_loom_self, hdraws, hnumber, modLot_of_hasLot (hcount _)]
  rfl

/-! ## The taper (R116) -/

/-- The range after the row, and whether a taper step was clamped or refused. -/
def rowRange (q : LoomPos) (g : Segment) (needles : Nat) : Nat × Nat × Bool :=
  if q.rowIn % g.stepRows = 0 then taperRange q g needles else (q.first, q.last, false)

/-- The PLAN_CLAMP notice of the first step of a segment that is not as planned. -/
def clampTold (m : Loom) (clamped : Bool) (q : LoomPos) (s : State) : State :=
  if clamped && !q.clampNoted && !s.settings.disable.getLsbD 8 then
    raise .planClamp (.station (loomSta m)) (BitVec.ofNat 16 q.segment.val) s
  else s

theorem clampTold_frame (m : Loom) (clamped : Bool) (q : LoomPos) (s : State) : NoticeFrame s (clampTold m clamped q s) := by
  unfold clampTold
  split
  · exact raise_frame ..
  · exact .refl s

theorem clampTold_setLot (m : Loom) (clamped : Bool) (q : LoomPos) (s : State) (k : Slot) (o : Option Lot) :
    clampTold m clamped q (s.setLot k o) = (clampTold m clamped q s).setLot k o := by
  unfold clampTold
  rw [raise_setLot]
  exact (apply_ite (fun u : State => u.setLot k o) _ _ _).symm

theorem clampTold_setLoom (m : Loom) (clamped : Bool) (q x : LoomPos) (s : State) :
    clampTold m clamped q (s.setLoom m x) = (clampTold m clamped q s).setLoom m x := by
  unfold clampTold
  rw [raise_setLoom]
  exact (apply_ite (fun u : State => u.setLoom m x) _ _ _).symm

theorem clampTold_eq (m : Loom) (clamped : Bool) (q : LoomPos) (s : State) :
    (if clamped && !q.clampNoted then
        warn .planClamped .planClamp (.station (loomSta m)) (BitVec.ofNat 16 q.segment.val) s
      else s) = clampTold m clamped q s := by
  unfold clampTold
  cases clamped && !q.clampNoted with
  | false => rfl
  | true =>
    show (if s.settings.disable.getLsbD 8 then _ else _) = _
    cases s.settings.disable.getLsbD 8 <;> rfl

/-- A position after the taper. -/
def tapered (q : LoomPos) (g : Segment) (needles : Nat) : LoomPos :=
  { q with
    first := (rowRange q g needles).1, last := (rowRange q g needles).2.1
    clampNoted := q.clampNoted || (rowRange q g needles).2.2 }

theorem taper_eq (m : Loom) (s : State) (q : LoomPos) :
    taper m (s.setLoom m q) =
      (clampTold m (rowRange q (s.segment q.segment) (s.needles m)).2.2 q s).setLoom m
        (tapered q (s.segment q.segment) (s.needles m)) := by
  have hneedles : (s.setLoom m q).needles m = s.needles m := rfl
  unfold taper tapered rowRange
  dsimp only
  rw [State.setLoom_loom_self, State.setLoom_segment, hneedles]
  split
  · unfold modLoom
    rw [clampTold_eq, State.setLoom_loom_self, setLoom_setLoom, clampTold_setLoom]
  · rw [Bool.or_false]
    rfl

/-! ## The three steps of a taken report -/

/-- The state after the three steps, beside the count of the row and the loom's position. -/
def rowTold (m : Loom) (c : NetLot) (q : LoomPos) (knots : BitVec 256) (s : State) : State :=
  clampTold m (rowRange q (s.segment q.segment) (s.needles m)).2.2 q
    (lowerDraw m c q (knotTold m (faultCount q knots (s.needles m)) s)).1

/-- The loom's position after the three steps. -/
def rowPos (m : Loom) (c : NetLot) (q : LoomPos) (knots : BitVec 256) (s : State) : LoomPos :=
  let told := knotTold m (faultCount q knots (s.needles m)) s
  { faulted q knots (s.needles m) with
    openRow := false
    first := (rowRange q (s.segment q.segment) (s.needles m)).1
    last := (rowRange q (s.segment q.segment) (s.needles m)).2.1
    clampNoted := q.clampNoted || (rowRange q (s.segment q.segment) (s.needles m)).2.2
    shortfall := (q.shortfall.add (upperDraw m c q told).2).add (lowerDraw m c q told).2 }

theorem rowTold_move (m : Loom) (c : NetLot) (q : LoomPos) (knots : BitVec 256) (s : State) :
    ∃ bs, MoveFrame { s with bobbins := bs } (rowTold m c q knots s) := by
  obtain ⟨bs, hdraws⟩ := lowerDraw_move m c q (knotTold m (faultCount q knots (s.needles m)) s)
  have htold := MoveFrame.ofNotice (knotTold_frame m (faultCount q knots (s.needles m)) s)
  exact ⟨bs, ((htold.setBobbins bs).trans hdraws).trans (.ofNotice (clampTold_frame ..))⟩

theorem rowSteps_eq {m : Loom} {c : NetLot} {s : State} {k : Slot} {l : Lot} (hl : HasLot s k l)
    (hi : (s.station (loomSta m)).lot = some l.number) (q : LoomPos) (knots : BitVec 256) :
    taper m (chargeTwine m c (compareKnots m knots (s.setLoom m { q with openRow := false }))) =
      ((rowTold m c q knots s).setLot k (some (rowCounted l))).setLoom m (rowPos m c q knots s) := by
  have hknots := knotTold_frame m (faultCount q knots (s.needles m)) s
  obtain ⟨bs, hdraws⟩ := lowerDraw_move m c q (knotTold m (faultCount q knots (s.needles m)) s)
  have hcompared : compareKnots m knots (s.setLoom m { q with openRow := false }) =
      (knotTold m (faultCount q knots (s.needles m)) s).setLoom m
        { faulted q knots (s.needles m) with openRow := false } := compareKnots_eq ..
  have htwine := chargeTwine_eq (c := c) (HasLot.congr hl hknots.lots) ((congrArg Station.lot (hknots.station _)).trans hi)
    { faulted q knots (s.needles m) with openRow := false }
  have hupper : upperDraw m c { faulted q knots (s.needles m) with openRow := false } = upperDraw m c q := rfl
  have hlower : lowerDraw m c { faulted q knots (s.needles m) with openRow := false } = lowerDraw m c q := rfl
  rw [hupper, hlower] at htwine
  rw [hcompared, htwine, taper_eq, clampTold_setLot, State.setLot_segment, setLot_needles]
  unfold rowTold rowPos
  generalize hlow : (lowerDraw m c q (knotTold m (faultCount q knots (s.needles m)) s)).1 = low at hdraws ⊢
  have hsegment (j : SegIx) : low.segment j = s.segment j :=
    hdraws.segment.trans ((MoveFrame.ofNotice hknots).setBobbins bs).segment
  have hneedles : low.needles m = s.needles m :=
    hdraws.needles.trans ((MoveFrame.ofNotice hknots).setBobbins bs).needles
  rw [hsegment, hneedles]
  rfl

end Sys2Proof.Laws
end

section
/-! The fourth step of a taken row report and its answer (R110, R117, R118). -/

namespace Sys2Proof.Laws

open Sys2Proof.Machine Sys2Proof.Safety

/-! ## The directive (R118) -/

/-- The answer of a taken report, once the row is compared, charged and tapered: from the position `p`, with the position
`next` of the row that follows, absent at the end of the chain. -/
def rowDirected (m : Loom) (hold : Bool) (taken : Nat) (p : LoomPos) (next : Option LoomPos) (s : State) : Served :=
  match next with
  | some x =>
    if hold then rowAnswer m taken .hold none (moveTo (loomSta m) .rowHold (s.setLoom m x))
    else
      let r := stopOrNext m (s.setLoom m x)
      rowAnswer m taken r.2.1 r.2.2 r.1
  | none =>
    if hold then rowAnswer m taken .hold none (moveTo (loomSta m) .rowHold (s.setLoom m { p with endPending := true }))
    else
      let r := attemptPanel m (finishPanel m (s.setLoom m p))
      rowAnswer m taken .panelEnd (if r.2 then some (r.1.loom m).order else none) r.1

theorem takeReport_eq {m : Loom} {c : NetLot} {s : State} {k : Slot} {l : Lot} (hl : HasLot s k l)
    (hi : (s.station (loomSta m)).lot = some l.number) (knots : BitVec 256) :
    takeReport m c knots s =
      rowDirected m (decide (c.missed < faultCount (s.loom m) knots (s.needles m))) (s.loom m).row
        (rowPos m c (s.loom m) knots s) ((rowPos m c (s.loom m) knots s).advance s.segment)
        ((rowTold m c (s.loom m) knots s).setLot k (some (rowCounted l))) := by
  obtain ⟨bs, hmove⟩ := rowTold_move m c (s.loom m) knots s
  have hsteps := rowSteps_eq (c := c) hl hi (s.loom m) knots
  have hsegment (x : LoomPos) : (((rowTold m c (s.loom m) knots s).setLot k (some (rowCounted l))).setLoom m x).segment =
      s.segment := funext fun _ => hmove.segment
  unfold takeReport rowDirected modLoom
  dsimp only
  rw [hsteps, State.setLoom_loom_self, hsegment]
  cases (rowPos m c (s.loom m) knots s).advance s.segment with
  | none => simp only [setLoom_setLoom]
  | some x => simp only [setLoom_setLoom]

theorem rowAnswer_setLoom (m : Loom) (n : Nat) (d : Directive) (o : Option RowOrder) (s : State) (x : LoomPos) :
    rowAnswer m n d o (s.setLoom m x) =
      (s.setLoom m { x with lastTaken := some n, lastAnswer := some (d, o) }, .ok, rowAnswerBytes d o) := by
  unfold rowAnswer modLoom
  rw [State.setLoom_loom_self, setLoom_setLoom]
  rfl

/-- A state change and the answer. -/
theorem rowAnswer_moved (m : Loom) (n : Nat) (d : Directive) (o : Option RowOrder) (st : RunState) (s : State) (x : LoomPos) :
    rowAnswer m n d o (moveTo (loomSta m) st (s.setLoom m x)) =
      (writeStation (loomSta m) { s.station (loomSta m) with state := st }
        (s.setLoom m { x with lastTaken := some n, lastAnswer := some (d, o) }), .ok, rowAnswerBytes d o) := by
  rw [moveTo_setLoom, rowAnswer_setLoom, moveTo_eq_writeStation, writeStation_setLoom]

theorem writeStation_same (i : Sta) (s : State) (m : Loom) (x : LoomPos) :
    writeStation i { s.station i with state := (s.station i).state } (s.setLoom m x) = s.setLoom m x := by
  rw [writeStation_setLoom, writeStation_self]

/-- No state change and the answer. -/
theorem rowAnswer_still (m : Loom) (n : Nat) (d : Directive) (o : Option RowOrder) (s : State) (x : LoomPos) :
    rowAnswer m n d o (s.setLoom m x) =
      (writeStation (loomSta m) { s.station (loomSta m) with state := (s.station (loomSta m)).state }
        (s.setLoom m { x with lastTaken := some n, lastAnswer := some (d, o) }), .ok, rowAnswerBytes d o) := by
  rw [rowAnswer_setLoom, writeStation_same]

theorem rowDirected_hold (m : Loom) (n : Nat) (p : LoomPos) (next : Option LoomPos) (s : State) :
    rowDirected m true n p next s =
      (writeStation (loomSta m) { s.station (loomSta m) with state := .rowHold }
        (s.setLoom m { next.getD { p with endPending := true } with lastTaken := some n, lastAnswer := some (.hold, none) }),
        .ok, [3, 0, 0, 0, 0, 0, 0, 0, 0]) := by
  cases next with
  | none => exact rowAnswer_moved ..
  | some x => exact rowAnswer_moved ..

theorem rowDirected_next {m : Loom} {n : Nat} {p x : LoomPos} {s : State}
    (hgo : (s.station (loomSta m)).state = .knotting ∧ (s.station (loomSta m)).causes = 0) :
    rowDirected m false n p (some x) s =
      (writeStation (loomSta m) { s.station (loomSta m) with state := (s.station (loomSta m)).state }
        (s.setLoom m { x with openRow := true, lastTaken := some n, lastAnswer := some (.next, some x.order) }), .ok,
        rowAnswerBytes .next (some x.order)) := by
  have hstop : stopOrNext m (s.setLoom m x) = (s.setLoom m { x with openRow := true }, .next, some x.order) := by
    unfold stopOrNext openRow modLoom
    dsimp only
    rw [State.setLoom_station, if_neg (by rw [hgo.1, hgo.2]; simp), State.setLoom_loom_self, setLoom_setLoom]
  show (let r := stopOrNext m (s.setLoom m x); rowAnswer m n r.2.1 r.2.2 r.1) = _
  rw [hstop]
  exact rowAnswer_still ..

theorem rowDirected_stop {m : Loom} {n : Nat} {p x : LoomPos} {s : State}
    (hgo : ¬((s.station (loomSta m)).state = .knotting ∧ (s.station (loomSta m)).causes = 0)) :
    rowDirected m false n p (some x) s =
      (writeStation (loomSta m) { s.station (loomSta m) with state := (s.station (loomSta m)).state }
        (s.setLoom m { x with lastTaken := some n, lastAnswer := some (.stop, none) }), .ok,
        [2, 0, 0, 0, 0, 0, 0, 0, 0]) := by
  have hstop : stopOrNext m (s.setLoom m x) = (s.setLoom m x, .stop, none) := if_pos (not_and_or.mp hgo)
  show (let r := stopOrNext m (s.setLoom m x); rowAnswer m n r.2.1 r.2.2 r.1) = _
  rw [hstop]
  exact rowAnswer_still ..

/-! ## The end of a panel (R110) -/

theorem panelDone_setLoom (m : Loom) (s : State) (k : Slot) (o o' : Option Lot) (p : LoomPos) :
    (panelDone m ((s.setLot k o).setLoom m p)).setLot k o' =
      ((raise .row (.station (loomSta m)) 0x600 s).setLot k o').setLoom m (panelEnded p) := by
  have hswap (u : State) (q : LoomPos) : (u.setLoom m q).setLot k o' = (u.setLot k o').setLoom m q := rfl
  unfold panelDone
  rw [State.setLoom_loom_self, setLoom_setLoom, raise_setLoom, raise_setLot, hswap, setLot_setLot]

theorem attemptPanel_stays {m : Loom} {s : State}
    (hgo : ¬((s.station (loomSta m)).state = .knotting ∧ (s.station (loomSta m)).causes = 0)) :
    attemptPanel m s = (s, false) := if_neg hgo

theorem counted_hasLot {m : Loom} {s : State} {k : Slot} {l : Lot} (hl : HasLot (s.setLot k (some l)) k l) (n : Nat) :
    HasLot ((raise .row (.station (loomSta m)) 0x600 s).setLot k (some { l with done := n })) k { l with done := n } := by
  have h : HasLot ((s.setLot k (some l)).setLot k (some { l with done := n })) k { l with done := n } := hasLot_setLot hl rfl
  rw [setLot_setLot] at h
  refine HasLot.congr h ?_
  show (raise .row (.station (loomSta m)) 0x600 s).lots.set _ _ = s.lots.set _ _
  rw [(raise_frame ..).lots]

section
variable {m : Loom} {s : State} {k : Slot} {l : Lot} (hl : HasLot (s.setLot k (some l)) k l)
  (hi : (s.station (loomSta m)).lot = some l.number)
include hl hi

theorem finishPanel_count (p : LoomPos)
    (h : l.done + 1 ≠ l.build.ordered ∨ (l.state ≠ .active ∧ l.state ≠ .held)) :
    finishPanel m ((s.setLot k (some l)).setLoom m p) =
      ((raise .row (.station (loomSta m)) 0x600 s).setLot k (some { l with done := l.done + 1 })).setLoom m (panelEnded p) := by
  rw [finishPanel_open (s := (s.setLot k (some l)).setLoom m p) (HasLot.congr hl rfl) hi h, panelDone_setLoom]

theorem finishPanel_complete (p : LoomPos) (h : l.done + 1 = l.build.ordered) (hst : l.state = .active ∨ l.state = .held) :
    finishPanel m ((s.setLot k (some l)).setLoom m p) =
      (raiseOnAll l.stations .lotEnd (raise .lot (.lot l.number) 0x205
        ((raise .row (.station (loomSta m)) 0x600 s).setLot k
          (some { l with done := l.done + 1, state := .complete })))).setLoom m (panelEnded p) := by
  rw [finishPanel_last (s := (s.setLot k (some l)).setLoom m p) (HasLot.congr hl rfl) hi h hst, panelDone_setLoom,
    raise_setLoom, raiseOnAll_setLoom]

variable {n : Nat} {p : LoomPos} (hopen : l.done + 1 ≠ l.build.ordered ∨ (l.state ≠ .active ∧ l.state ≠ .held))
include hopen

theorem rowDirected_ended (hgo : ¬((s.station (loomSta m)).state = .knotting ∧ (s.station (loomSta m)).causes = 0)) :
    rowDirected m false n p none (s.setLot k (some l)) =
      (writeStation (loomSta m) { s.station (loomSta m) with state := (s.station (loomSta m)).state }
        (((raise .row (.station (loomSta m)) 0x600 s).setLot k (some { l with done := l.done + 1 })).setLoom m
          { panelEnded p with lastTaken := some n, lastAnswer := some (.panelEnd, none) }), .ok,
        [4, 0, 0, 0, 0, 0, 0, 0, 0]) := by
  have hsta := (raise_frame .row (.station (loomSta m)) 0x600 s).station (loomSta m)
  show (let r := attemptPanel m (finishPanel m _); rowAnswer m n .panelEnd (if r.2 then some (r.1.loom m).order else none) r.1) = _
  rw [finishPanel_count hl hi p hopen, attemptPanel_stays (by rw [State.setLoom_station, State.setLot_station, hsta]; exact hgo),
    ← hsta]
  exact rowAnswer_still ..

variable (hgo : (s.station (loomSta m)).state = .knotting ∧ (s.station (loomSta m)).causes = 0)
include hgo

theorem rowDirected_rests (h : l.build.ordered ≤ l.started ∨ l.state = .closed) :
    rowDirected m false n p none (s.setLot k (some l)) =
      (writeStation (loomSta m) { s.station (loomSta m) with state := .standby }
        (((raise .row (.station (loomSta m)) 0x600 s).setLot k (some { l with done := l.done + 1 })).setLoom m
          { panelEnded p with lastTaken := some n, lastAnswer := some (.panelEnd, none) }), .ok,
        [4, 0, 0, 0, 0, 0, 0, 0, 0]) := by
  have hsta := (raise_frame .row (.station (loomSta m)) 0x600 s).station (loomSta m)
  have hrefused := attemptPanel_refused (m := m)
    (s := ((raise .row (.station (loomSta m)) 0x600 s).setLot k (some { l with done := l.done + 1 })).setLoom m (panelEnded p))
    (HasLot.congr (counted_hasLot hl _) rfl) (by rw [State.setLoom_station, State.setLot_station, hsta]; exact hi)
    (by rw [State.setLoom_station, State.setLot_station, hsta]; exact hgo.1)
    (by rw [State.setLoom_station, State.setLot_station, hsta]; exact hgo.2) h
  show (let r := attemptPanel m (finishPanel m _); rowAnswer m n .panelEnd (if r.2 then some (r.1.loom m).order else none) r.1) = _
  rw [finishPanel_count hl hi p hopen, hrefused, ← hsta]
  exact rowAnswer_moved ..

theorem rowDirected_starts {c : NetLot} (hc : l.build = .net c) (hlt : l.started < c.ordered) (hcl : l.state ≠ .closed) :
    rowDirected m false n p none (s.setLot k (some l)) =
      (writeStation (loomSta m) { s.station (loomSta m) with state := (s.station (loomSta m)).state }
        (((raise .row (.station (loomSta m)) 0x600 s).setLot k
          (some { l with done := l.done + 1, started := l.started + 1 })).setLoom m
          { nextPanel c (s.settings.needles[m] - 1) (panelEnded p) with
            lastTaken := some n
            lastAnswer := some (.panelEnd, some (nextPanel c (s.settings.needles[m] - 1) (panelEnded p)).order) }), .ok,
        rowAnswerBytes .panelEnd (some (nextPanel c (s.settings.needles[m] - 1) (panelEnded p)).order)) := by
  have hsta := (raise_frame .row (.station (loomSta m)) 0x600 s).station (loomSta m)
  have hset := (raise_frame .row (.station (loomSta m)) 0x600 s).settings
  have hswap (u : State) (q : LoomPos) (o : Option Lot) : (u.setLoom m q).setLot k o = (u.setLot k o).setLoom m q := rfl
  have hstarted := attemptPanel_started (m := m)
    (s := ((raise .row (.station (loomSta m)) 0x600 s).setLot k (some { l with done := l.done + 1 })).setLoom m (panelEnded p))
    (HasLot.congr (counted_hasLot hl _) rfl) (by rw [State.setLoom_station, State.setLot_station, hsta]; exact hi)
    (by rw [State.setLoom_station, State.setLot_station, hsta]; exact hgo.1)
    (by rw [State.setLoom_station, State.setLot_station, hsta]; exact hgo.2) hc hlt hcl
  rw [hswap, setLot_setLot, setLoom_setLoom, State.setLoom_settings, State.setLot_settings, hset, State.setLoom_loom_self]
    at hstarted
  show (let r := attemptPanel m (finishPanel m _); rowAnswer m n .panelEnd (if r.2 then some (r.1.loom m).order else none) r.1) = _
  rw [finishPanel_count hl hi p hopen, hstarted, ← hsta]
  dsimp only
  rw [if_pos rfl, State.setLoom_loom_self]
  exact rowAnswer_still ..

end

/-- The panel that completes its lot: LOT_END leaves the loom no start (R44). -/
theorem rowDirected_completes {m : Loom} {s : State} {k : Slot} {l : Lot} (hl : HasLot (s.setLot k (some l)) k l)
    (hi : (s.station (loomSta m)).lot = some l.number) (h : l.done + 1 = l.build.ordered)
    (hst : l.state = .active ∨ l.state = .held) (hset : l.stations.getLsbD (loomSta m).val = true) (n : Nat) (p : LoomPos) :
    rowDirected m false n p none (s.setLot k (some l)) =
      ((raiseOnAll l.stations .lotEnd (raise .lot (.lot l.number) 0x205
        ((raise .row (.station (loomSta m)) 0x600 s).setLot k
          (some { l with done := l.done + 1, state := .complete })))).setLoom m
            { panelEnded p with lastTaken := some n, lastAnswer := some (.panelEnd, none) }, .ok,
        [4, 0, 0, 0, 0, 0, 0, 0, 0]) := by
  have hadm : Cause.lotEnd.admissible (kindOf (loomSta m)) = true := by clear * -; revert m; decide
  have hraised := raiseOnAll_station hadm rfl (by decide) hset (raise .lot (.lot l.number) 0x205
    ((raise .row (.station (loomSta m)) 0x600 s).setLot k (some { l with done := l.done + 1, state := .complete })))
  have hnz : (raisedOn (loomSta m) .lotEnd (s.station (loomSta m))).causes ≠ 0 := by
    intro h
    have hbit := raisedOn_has (loomSta m) .lotEnd (s.station (loomSta m))
    rw [h] at hbit
    exact absurd hbit (by decide)
  rw [(raise_frame ..).station, State.setLot_station, (raise_frame ..).station] at hraised
  show (let r := attemptPanel m (finishPanel m _); rowAnswer m n .panelEnd (if r.2 then some (r.1.loom m).order else none) r.1) = _
  rw [finishPanel_complete hl hi p h hst,
    attemptPanel_stays (by rw [State.setLoom_station, hraised]; exact fun h => hnz h.2)]
  exact rowAnswer_setLoom ..

/-! ## The request (R113) -/

theorem serveRowReport_taken {m : Loom} {c : NetLot} {row : BitVec 24} {knots : BitVec 256} {s : State} {k : Slot} {l : Lot}
    (hl : HasLot s k l) (hi : (s.station (loomSta m)).lot = some l.number) (hc : l.build = .net c)
    (hopen : (s.loom m).openRow = true) (hrow : row.toNat = (s.loom m).row) :
    serveRowReport (staByte (loomSta m)) row knots s = takeReport m c knots s := by
  unfold serveRowReport
  rw [staOf_loomSta]
  dsimp only
  rw [net_eq_some hl hi hc]
  dsimp only
  rw [if_pos hopen, if_pos hrow]

end Sys2Proof.Laws
end

section
/-! ROW_REPORT with an open row of that number (O42). -/

namespace Sys2Proof.Laws

open Sys2Proof.Machine Sys2Proof.Safety

/-! ## The request on what a frame's arrival leaves -/

theorem Arrived.needles {s a : State} (h : Arrived s a) (m : Loom) : a.needles m = s.settings.needles[m] := by
  unfold State.needles
  rw [h.settings]

theorem Arrived.notice {s a t : State} (h : Arrived s a) (k : NoticeFrame a t) : Arrived s t := by
  unfold Arrived
  rw [k.1, h]

theorem NoticeFrame.rebase {s v t : State} (h : NoticeFrame v t) (hv : ∃ ps qs, v = { s with ports := ps, queues := qs }) :
    ∃ ps qs, t = { s with ports := ps, queues := qs } := by
  obtain ⟨ps, qs, rfl⟩ := hv
  exact ⟨t.ports, t.queues, h.1⟩

theorem Arrived.segment {s a : State} (h : Arrived s a) : a.segment = s.segment := by
  rw [h]
  rfl

theorem serveRowReport_arrived {m : Loom} {c : NetLot} {row : BitVec 24} {s a : State} {k : Slot} {l : Lot}
    (h : Arrived s a) (hl : HasLot s k l) (hi : (s.station (loomSta m)).lot = some l.number) (hc : l.build = .net c)
    (hopen : (s.loom m).openRow = true) (hrow : row.toNat = (s.loom m).row) (knots : BitVec 256) :
    serveRowReport (staByte (loomSta m)) row knots a =
      rowDirected m (decide (c.missed < faultCount (s.loom m) knots s.settings.needles[m])) (s.loom m).row
        (rowPos m c (s.loom m) knots a) ((rowPos m c (s.loom m) knots a).advance s.segment)
        ((rowTold m c (s.loom m) knots a).setLot k (some (rowCounted l))) := by
  have hla : HasLot a k l := h.hasLot hl
  have hia : (a.station (loomSta m)).lot = some l.number := by rw [h.station]; exact hi
  rw [serveRowReport_taken hla hia hc (by rw [h.loom]; exact hopen) (by rw [h.loom]; exact hrow), takeReport_eq hla hia,
    h.loom, h.needles, h.segment]

theorem rowTold_noticed (m : Loom) (c : NetLot) (q : LoomPos) (knots : BitVec 256) (s : State) :
    Noticed s (rowTold m c q knots s) := by
  obtain ⟨bs, hmove⟩ := rowTold_move m c q knots s
  exact (Noticed.of_ports (a := s) (u := { s with bobbins := bs }) rfl rfl).trans (.of_move hmove)

/-! ## The statement's own arithmetic -/

/-- The range after the row, with the sides written out. -/
theorem rowRange_eq (q : LoomPos) (g : Segment) (needles : Nat) {out : TaperStep → Int} (hout : ∀ x, out x = x.toInt) :
    (if q.rowIn % g.stepRows ≠ 0 then (q.first, q.last, false)
      else if clampInt 0 ((needles : Int) - 1) ((q.last : Int) + out g.right) <
          clampInt 0 ((needles : Int) - 1) ((q.first : Int) - out g.left) then (q.first, q.last, true)
      else
        ((clampInt 0 ((needles : Int) - 1) ((q.first : Int) - out g.left)).toNat,
          (clampInt 0 ((needles : Int) - 1) ((q.last : Int) + out g.right)).toNat,
          decide (clampInt 0 ((needles : Int) - 1) ((q.first : Int) - out g.left) ≠ (q.first : Int) - out g.left ∨
            clampInt 0 ((needles : Int) - 1) ((q.last : Int) + out g.right) ≠ (q.last : Int) + out g.right))) =
      rowRange q g needles := by
  unfold rowRange taperRange
  rw [ite_not, hout, hout, Bool.decide_or]
  simp only [ne_eq, decide_not]
  rfl

/-- The advance keeps what a position says of the last row taken. -/
theorem advance_lastTaken (q : LoomPos) (segs : SegIx → Segment) (t : Option Nat) :
    LoomPos.advance { q with lastTaken := t } segs = (q.advance segs).map fun x => { x with lastTaken := t } := by
  unfold LoomPos.advance
  dsimp only
  split
  · rfl
  · split
    · split <;> rfl
    · rfl

theorem missedNeedles_count (q : LoomPos) (knots : BitVec 256) (needles : Nat) :
    (missedNeedles q knots needles).length = (List.range 256).countP fun n => q.expects n && !sensed knots needles n :=
  List.countP_eq_length_filter.symm

theorem strayNeedles_count (q : LoomPos) (knots : BitVec 256) (needles : Nat) :
    (strayNeedles q knots needles).length = (List.range 256).countP fun n => sensed knots needles n && !q.expects n :=
  List.countP_eq_length_filter.symm

/-- The faults of a row put its entry at the end of the list, where there is room. -/
theorem faulted_of_pos {q : LoomPos} {knots : BitVec 256} {needles : Nat} (h : 0 < faultCount q knots needles) :
    ∃ n, faulted q knots needles =
        (if q.faults.length < Config.faultMax then
          { q with
            faults := q.faults ++
              [{ panel := q.panel, row := q.row, missed := (missedNeedles q knots needles).length
                 stray := (strayNeedles q knots needles).length, needle := n }] }
        else { q with overflow := true }) ∧
      n < 256 ∧ rowFaulty q knots needles n = true ∧ ∀ j, j < n → rowFaulty q knots needles j = false := by
  rw [faultCount_eq] at h
  cases hn : allNeedles.filter (rowFaulty q knots needles) with
  | nil =>
    rw [hn] at h
    exact absurd h (Nat.lt_irrefl 0)
  | cons n ns =>
    have hfind : (List.range 256).find? (rowFaulty q knots needles) = some n := by
      rw [← List.head?_filter]
      exact congrArg List.head? hn
    obtain ⟨hfaulty, hmem, hfirst⟩ := List.find?_range_eq_some.mp hfind
    exact ⟨n, faulted_faulty hn, List.mem_range.mp hmem, hfaulty, fun j hj => by simpa using hfirst j hj⟩

theorem faulted_of_zero {q : LoomPos} {knots : BitVec 256} {needles : Nat} (h : faultCount q knots needles = 0) :
    faulted q knots needles = q := by
  rw [faultCount_eq] at h
  exact faulted_clean (List.length_eq_zero_iff.mp h)

/-! ## Draws that a bobbin gives in full, above its low mark -/

/-- A bobbin's record after `n` mm are drawn. -/
def drawnFull (n : Nat) (b : Bobbin) : Bobbin :=
  { b with drawn := ⟨(b.drawn.total + n * 1000) / 1000, b.drawn.total % 1000⟩ }

theorem charge_full {i : Sta} {pl : Place} {s : State} {b : Bobbin} {n : Nat} (hb : s.bobbinAt pl = some b)
    (hm : b.state = .mounted) (hlow : s.settings.lowMark * 1000 ≤ b.wound.total - b.drawn.total - n * 1000)
    (hlt : n * 1000 < b.wound.total - b.drawn.total) :
    charge i pl (n * 1000) s = ({ s with bobbins := withBobbin (drawnFull n b) s.bobbins }, 0) := by
  have hmin : min (n * 1000) (b.wound.total - b.drawn.total) = n * 1000 := Nat.min_eq_left hlt.le
  have hleft : leftBy (n * 1000) b = b.wound.total - b.drawn.total - n * 1000 := by
    unfold leftBy
    rw [hmin]
  have hunmarked : decide (leftBy (n * 1000) b < s.settings.lowMark * 1000) = false := by
    rw [hleft]
    exact decide_eq_false (Nat.not_lt.mpr hlow)
  have hpos : 0 < leftBy (n * 1000) b := by
    rw [hleft]
    omega
  have hdrawn : drawnBy (n * 1000) s.settings.lowMark b = drawnFull n b := by
    show ({ b with
      drawn := .ofUm (b.drawn.total + min (n * 1000) (b.wound.total - b.drawn.total))
      state := if leftBy (n * 1000) b = 0 then .runOut else .mounted
      low := b.low || decide (leftBy (n * 1000) b < s.settings.lowMark * 1000) } : Bobbin) = _
    rw [hunmarked, Bool.or_false, if_neg hpos.ne', hmin, ← hm]
    unfold drawnFull Len.ofUm
    rw [Nat.add_mul_mod_self_right]
  have htold : drawTold (n * 1000) b s = { s with bobbins := withBobbin (drawnFull n b) s.bobbins } := by
    unfold drawTold
    rw [hunmarked, hdrawn]
    rfl
  rw [charge_eq _ hb hm, drained_of_left hpos, htold, hmin, Nat.sub_self]

theorem Len.add_zero {x : Len} (hmm : x.mm ≤ 4294967295) (hum : x.um < 1000) : x.add 0 = x := by
  have hdiv : (x.um + 0) / 1000 = 0 := Nat.div_eq_of_lt hum
  have hmod : (x.um + 0) % 1000 = x.um := Nat.mod_eq_of_lt hum
  unfold Len.add
  rw [hdiv, hmod, if_neg (show ¬Config.maxMm < x.mm + 0 from Nat.not_lt.mpr hmm)]
  rfl

/-- The position after a row whose feeds give all of it, its row closed. -/
def rowGiven (q : LoomPos) (g : Segment) (knots : BitVec 256) (needles : Nat) : LoomPos :=
  { faulted q knots needles with
    openRow := false
    first := (rowRange q g needles).1
    last := (rowRange q g needles).2.1
    clampNoted := q.clampNoted || (rowRange q g needles).2.2
    shortfall := q.shortfall }

section
variable {m : Loom} {c : NetLot} {q : LoomPos} {s : State} {x y : Bobbin}
  (hx : s.bobbinAt (.feed m .upper) = some x) (hy : s.bobbinAt (.feed m .lower) = some y)
  (hxm : x.state = .mounted) (hym : y.state = .mounted) (hids : IdsOk s)
  (hxlow : s.settings.lowMark * 1000 ≤ x.wound.total - x.drawn.total - (rowDraw q c + 1) / 2 * 1000)
  (hylow : s.settings.lowMark * 1000 ≤ y.wound.total - y.drawn.total - rowDraw q c / 2 * 1000)
  (hxlt : (rowDraw q c + 1) / 2 * 1000 < x.wound.total - x.drawn.total)
  (hylt : rowDraw q c / 2 * 1000 < y.wound.total - y.drawn.total)
include hx hxm hxlow hxlt

theorem upperDraw_full :
    upperDraw m c q s = ({ s with bobbins := withBobbin (drawnFull ((rowDraw q c + 1) / 2) x) s.bobbins }, 0) :=
  charge_full hx hxm hxlow hxlt

include hy hym hids hylow hylt

/-- Both feeds give their part of the row. -/
theorem lowerDraw_full :
    lowerDraw m c q s =
      ({ s with
        bobbins := withBobbin (drawnFull (rowDraw q c / 2) y)
          (withBobbin (drawnFull ((rowDraw q c + 1) / 2) x) s.bobbins) }, 0) := by
  have hplace : x.place = some (.feed m .upper) := by simpa using List.find?_some hx
  have hother : x.place ≠ some (.feed m .lower) := by rw [hplace]; simp
  have hlower : { s with bobbins := withBobbin (drawnFull ((rowDraw q c + 1) / 2) x) s.bobbins }.bobbinAt (.feed m .lower) =
      some y := (bobbinAt_withBobbin_ne (b' := drawnFull _ x) hids (bobbinAt_mem hx) rfl hother hother rfl).trans hy
  unfold lowerDraw
  rw [upperDraw_full hx hxm hxlow hxlt]
  exact charge_full hlower hym hylow hylt

/-- The same on what a frame's arrival and the comparison leave. -/
theorem draws_arrived {t : State} (h : Arrived s t) :
    lowerDraw m c q t =
        ({ t with
          bobbins := withBobbin (drawnFull (rowDraw q c / 2) y)
            (withBobbin (drawnFull ((rowDraw q c + 1) / 2) x) t.bobbins) }, 0) ∧
      (upperDraw m c q t).2 = 0 := by
  have hxt := (h.bobbinAt (.feed m .upper)).trans hx
  have hyt := (h.bobbinAt (.feed m .lower)).trans hy
  have hidst : IdsOk t := by unfold IdsOk; rw [h.bobbins]; exact hids
  rw [← h.settings] at hxlow hylow
  exact ⟨lowerDraw_full hxt hyt hxm hym hidst hxlow hylow hxlt hylt,
    congrArg Prod.snd (upperDraw_full (c := c) hxt hxm hxlow hxlt)⟩

/-- The whole row where both feeds give their part: bobbins and notices. -/
theorem rowTold_full {a : State} (h : Arrived s a) (knots : BitVec 256) :
    ∃ ps qs, rowTold m c q knots a =
      { s with
        ports := ps, queues := qs
        bobbins := withBobbin (drawnFull (rowDraw q c / 2) y)
          (withBobbin (drawnFull ((rowDraw q c + 1) / 2) x) s.bobbins) } := by
  have htold := h.notice (knotTold_frame m (faultCount q knots (a.needles m)) a)
  unfold rowTold
  rw [(draws_arrived hx hy hxm hym hids hxlow hylow hxlt hylt htold).1]
  generalize knotTold m (faultCount q knots (a.needles m)) a = told at htold
  refine (clampTold_frame m _ q _).rebase
    (s := { s with
      bobbins := withBobbin (drawnFull (rowDraw q c / 2) y)
        (withBobbin (drawnFull ((rowDraw q c + 1) / 2) x) s.bobbins) }) ⟨told.ports, told.queues, ?_⟩
  rw [htold]

theorem rowPos_full {a : State} (h : Arrived s a) (knots : BitVec 256) (hmm : q.shortfall.mm ≤ 4294967295)
    (hum : q.shortfall.um < 1000) :
    rowPos m c q knots a = rowGiven q (s.segment q.segment) knots s.settings.needles[m] := by
  have htold := h.notice (knotTold_frame m (faultCount q knots (a.needles m)) a)
  obtain ⟨hlower, hupper⟩ := draws_arrived hx hy hxm hym hids hxlow hylow hxlt hylt htold
  unfold rowPos rowGiven
  dsimp only
  rw [hlower, hupper, Len.add_zero hmm hum, Len.add_zero hmm hum, h.needles, h.segment]

end

/-! ## A row after which the loom knots on -/

/-- The position after a row whose segment goes on. -/
def rowOn (q : LoomPos) (g : Segment) (knots : BitVec 256) (needles : Nat) : LoomPos :=
  { rowGiven q g knots needles with
    openRow := true
    rowIn := q.rowIn + 1
    row := q.row + 1
    lastTaken := some q.row
    lastAnswer := some (.next, some
      { panel := q.panel, row := q.row + 1, first := (rowRange q g needles).1, last := (rowRange q g needles).2.1 }) }

theorem serveRowReport_on {m : Loom} {c : NetLot} {row : BitVec 24} {knots : BitVec 256} {s a : State} {k : Slot} {l : Lot}
    (h : Arrived s a) (hl : HasLot s k l) (hi : (s.station (loomSta m)).lot = some l.number) (hc : l.build = .net c)
    (hopen : (s.loom m).openRow = true) (hrow : row.toNat = (s.loom m).row)
    (hfew : decide (c.missed < faultCount (s.loom m) knots s.settings.needles[m]) = false)
    (hon : (s.loom m).rowIn < (s.segment (s.loom m).segment).rows)
    (hgo : ((rowTold m c (s.loom m) knots a).station (loomSta m)).state = .knotting ∧
      ((rowTold m c (s.loom m) knots a).station (loomSta m)).causes = 0)
    (hpos : rowPos m c (s.loom m) knots a =
      rowGiven (s.loom m) (s.segment (s.loom m).segment) knots s.settings.needles[m]) :
    serveRowReport (staByte (loomSta m)) row knots a =
      (((rowTold m c (s.loom m) knots a).setLot k (some (rowCounted l))).setLoom m
        (rowOn (s.loom m) (s.segment (s.loom m).segment) knots s.settings.needles[m]), .ok,
        [1, 1] ++ bytesOf 2 (s.loom m).panel ++ bytesOf 3 ((s.loom m).row + 1) ++
          bytesOf 1 (rowRange (s.loom m) (s.segment (s.loom m).segment) s.settings.needles[m]).1 ++
          bytesOf 1 (rowRange (s.loom m) (s.segment (s.loom m).segment) s.settings.needles[m]).2.1) := by
  have hadv : (rowPos m c (s.loom m) knots a).advance s.segment =
      some { rowPos m c (s.loom m) knots a with rowIn := (s.loom m).rowIn + 1, row := (s.loom m).row + 1 } := if_pos hon
  rw [serveRowReport_arrived h hl hi hc hopen hrow, hfew, hadv,
    rowDirected_next (s := (rowTold m c (s.loom m) knots a).setLot k (some (rowCounted l))) hgo, writeStation_same, hpos]
  rfl

end Sys2Proof.Laws

namespace Sys2Proof.Proofs

open Sys2Proof.Machine Sys2Proof.Safety Sys2Proof.Laws

/-- Settles O42: the three steps of a taken report are those of the statement (`rowTold`, `rowPos`), each answer is a case of
`rowDirected`, and where both feeds give their part in full the row goes on (`serveRowReport_on`). -/
theorem rowReportTakesTheRow : Obligations.RowReportTakesTheRow := by
  refine ⟨?_, ?_⟩
  · intro p m row knots k l c s hL hS hl hi hc hopen hrow i q needles faulty missed stray entries draw a compared upper lower
      g out wantFirst wantLast clamp newFirst newLast range u pos counted r goes answers onward
    have harr : Arrived s a := validArrival_arrived p s
    have hmissed : missed = (missedNeedles q knots needles).length := (missedNeedles_length ..).symm
    have hstray : stray = (strayNeedles q knots needles).length := (strayNeedles_length ..).symm
    have hcount : missed + stray = faultCount q knots needles := by rw [hmissed, hstray]; rfl
    have hcompared : compared = knotTold m (faultCount q knots (a.needles m)) a := by
      rw [harr.needles, ← hcount]
      rfl
    have hupper : upper = upperDraw m c q compared := rfl
    have hlower : lower = lowerDraw m c q compared := rfl
    have hout (x : TaperStep) : out x = x.toInt := by cases x <;> rfl
    have hrange : range = rowRange q g needles := rowRange_eq q g needles hout
    have hsettings : lower.1.settings = s.settings := by
      obtain ⟨bs, hmove⟩ := lowerDraw_move m c q compared
      rw [hlower, hmove.settings, hcompared]
      exact (knotTold_frame ..).settings.trans harr.settings
    have hu : u = rowTold m c q knots a := by
      unfold rowTold clampTold
      rw [← hcompared, ← hlower, hsettings, harr.needles, harr.segment, ← hrange]
    have hpos : pos = { rowPos m c q knots a with lastTaken := some q.row } := by
      unfold rowPos
      dsimp only
      rw [← hcompared, ← hupper, ← hlower, harr.needles, harr.segment, ← hrange]
      unfold faulted faultEntries
      rw [← hmissed, ← hstray, ← hcount]
      rfl
    have hserve := serveRowReport_arrived harr hl hi hc hopen hrow knots
    change serveRowReport (staByte i) row knots a = rowDirected m (decide (c.missed < faultCount q knots needles)) q.row
      (rowPos m c q knots a) ((rowPos m c q knots a).advance s.segment)
      ((rowTold m c q knots a).setLot k (some counted)) at hserve
    have honward : onward = ((rowPos m c q knots a).advance s.segment).map fun x => { x with lastTaken := some q.row } := by
      rw [← advance_lastTaken, ← hpos]
      rfl
    obtain ⟨bs, hmove⟩ := rowTold_move m c q knots a
    have hnoticed := rowTold_noticed m c q knots a
    rw [← hcount, ← hu] at hserve
    rw [← hu] at hmove hnoticed
    generalize hP : rowPos m c q knots a = P at hpos hserve honward
    have hpanel : P.panel = q.panel := by rw [← hP]; rfl
    have hul : HasLot (u.setLot k (some counted)) k counted := hasLot_setLot (HasLot.congr (harr.hasLot hl) hmove.lots) rfl
    have hui : (u.station i).lot = some counted.number := by
      rw [hmove.lot]
      exact (congrArg Station.lot (harr.station i)).trans hi
    have huset : u.settings = s.settings := hmove.settings.trans harr.settings
    have reports {payload : List Byte} {w : State} (h : serveRowReport (staByte i) row knots a = (w, .ok, payload))
        (hw : Noticed a w) : Answers p 0x42 .ok payload (.rowReport p (staByte i) row knots) s w :=
      answers_of_steered (r := .rowReport (staByte i) row knots) hL hS rfl rfl rfl h hw
    have written {v : State} (hv : Noticed a v) (st : RunState) (b : Lot) (x : LoomPos) :
        Noticed a (writeStation i { r with state := st } ((v.setLot k (some b)).setLoom m x)) :=
      hv.trans (((setLot_noticed ..).trans (setLoom_noticed ..)).trans (writeStation_noticed ..))
    have hended : Noticed a (raise .row (.station i) 0x600 u) := hnoticed.trans (.of_notice (raise_frame ..))
    clear_value pos u onward
    subst hpos
    refine ⟨fun hhold => ?_, fun hok x hx => ?_, fun hok hend => ?_⟩
    · rw [decide_eq_true hhold, rowDirected_hold] at hserve
      have hans := reports hserve (written hnoticed ..)
      cases hadv : P.advance s.segment with
      | none =>
        rw [honward, hadv]
        rw [hadv] at hans
        exact hans
      | some x =>
        rw [honward, hadv]
        rw [hadv] at hans
        exact hans
    · rw [honward] at hx
      obtain ⟨y, hy, rfl⟩ := Option.map_eq_some_iff.mp hx
      rw [decide_eq_false (Nat.not_lt.mpr hok), hy] at hserve
      refine ⟨fun hgo => ?_, fun hgo => ?_⟩
      · rw [rowDirected_next (s := u.setLot k (some counted)) hgo, rowAnswerBytes_order] at hserve
        exact reports hserve (written hnoticed ..)
      · rw [rowDirected_stop (s := u.setLot k (some counted)) hgo] at hserve
        exact reports hserve (written hnoticed ..)
    · rw [honward, Option.map_eq_none_iff] at hend
      rw [decide_eq_false (Nat.not_lt.mpr hok), hend] at hserve
      intro top o ended done off
      have hordered : counted.build.ordered = c.ordered := congrArg Build.ordered hc
      refine ⟨fun hopen' => ⟨fun hgo hlt hcl => ?_, fun hgo h => ?_, fun hgo => ?_⟩, fun hlast hst hset => ?_⟩
      · rw [rowDirected_starts hul hui (hordered ▸ hopen') hgo hc hlt hcl, rowAnswerBytes_order, huset] at hserve
        dsimp only [nextPanel, panelEnded, LoomPos.order] at hserve
        rw [hpanel] at hserve
        have hans := reports hserve (written hended ..)
        exact hans
      · rw [rowDirected_rests hul hui (hordered ▸ hopen') hgo (hordered ▸ h)] at hserve
        have hans := reports hserve (written hended ..)
        exact hans
      · rw [rowDirected_ended hul hui (hordered ▸ hopen') hgo] at hserve
        have hans := reports hserve (written hended ..)
        exact hans
      · rw [rowDirected_completes hul hui (hordered ▸ hlast) hst hset] at hserve
        exact reports hserve ((((hended.trans (setLot_noticed ..)).trans (.of_notice (raise_frame ..))).trans
          (raiseOnAll_noticed ..)).trans (setLoom_noticed ..))
  · intro p m row knots k l c x y s hL hS hl hi hc hopen hrow hx hy hxm hym hok i r q needles sensed expected missed stray draw g
      range hfew hmm hum hxlow hylow hxlt hylt hst hz hon
    have harr : Arrived s (validArrival p s) := validArrival_arrived p s
    obtain ⟨⟨-, hids, -⟩, -⟩ := hok
    have hmissed : missed = (missedNeedles q knots needles).length := (missedNeedles_count ..).symm
    have hstray : stray = (strayNeedles q knots needles).length := (strayNeedles_count ..).symm
    have hcount : missed + stray = faultCount q knots needles := by rw [hmissed, hstray]; rfl
    obtain ⟨ps, qs, htold⟩ := rowTold_full (c := c) (q := q) hx hy hxm hym hids hxlow hylow hxlt hylt harr knots
    have hpos := rowPos_full (c := c) (q := q) hx hy hxm hym hids hxlow hylow hxlt hylt harr knots hmm hum
    have hgo : ((rowTold m c q knots (validArrival p s)).station i).state = .knotting ∧
        ((rowTold m c q knots (validArrival p s)).station i).causes = 0 := by
      rw [htold]
      exact ⟨hst, hz⟩
    have hserve := serveRowReport_on harr hl hi hc hopen hrow (decide_eq_false (Nat.not_lt.mpr (hcount ▸ hfew))) hon hgo hpos
    have hans := answers_of_steered (c := .rowReport p (staByte i) row knots) hL hS rfl rfl rfl hserve
      (((rowTold_noticed ..).trans (setLot_noticed ..)).trans (setLoom_noticed ..))
    rw [htold] at hans
    refine ⟨_, hans, rfl, rfl, ?_, ?_, ?_, ?_⟩
    · rw [State.setLoom_loom_self]
      have hstays : rowOn q g knots needles = { rowOn q g knots needles with openRow := q.openRow } := by
        rw [hopen]
        rfl
      exact congrArg (s.looms.set m.val · m.isLt) hstays
    · rw [State.setLoom_loom_self]
      intro h0
      have hq := faulted_of_zero (hcount ▸ h0)
      have hfaults := congrArg LoomPos.faults hq
      have hoverflow := congrArg LoomPos.overflow hq
      exact ⟨hfaults, hoverflow⟩
    · rw [State.setLoom_loom_self]
      intro hpos hroom
      obtain ⟨n, hq, hn, hfaulty, hfirst⟩ := faulted_of_pos (hcount ▸ hpos)
      rw [if_pos (show q.faults.length < Config.faultMax from hroom), ← hmissed, ← hstray] at hq
      have hfaults := congrArg LoomPos.faults hq
      have hoverflow := congrArg LoomPos.overflow hq
      exact ⟨hoverflow, n, hfaults, hn, hfaulty, hfirst⟩
    · rw [State.setLoom_loom_self]
      intro hpos hfull
      obtain ⟨n, hq, -⟩ := faulted_of_pos (hcount ▸ hpos)
      rw [if_neg (show ¬q.faults.length < Config.faultMax from Nat.not_lt.mpr hfull)] at hq
      have hfaults := congrArg LoomPos.faults hq
      have hoverflow := congrArg LoomPos.overflow hq
      exact ⟨hfaults, hoverflow⟩

end Sys2Proof.Proofs
end

section
/-! STATION_RUN of a loom (O35). -/

namespace Sys2Proof.Laws

open Sys2Proof.Machine Sys2Proof.Safety

theorem serveStationRun_loom (m : Loom) (s : State) : serveStationRun (staByte (loomSta m)) s = runLoom m s := by
  unfold serveStationRun
  rw [staOf_staByte]
  dsimp only
  rw [twistOf_loomSta, loomOf_loomSta]

/-- A loom uses both its feeds (R82). -/
theorem loomFeedsMounted_iff {m : Loom} {s : State} :
    feedsMounted (loomSta m) s = true ↔ ∀ f, ∃ b, s.bobbinAt (.feed m f) = some b ∧ b.state = .mounted := by
  have hused : usedPlaces (loomSta m) s = [.feed m .upper, .feed m .lower] := by
    unfold usedPlaces
    rw [loomOf_loomSta]
  rw [feedsMounted_iff, hused, List.forall_mem_cons, List.forall_mem_singleton]
  exact ⟨fun ⟨hupper, hlower⟩ f => by cases f; exacts [hupper, hlower], fun h => ⟨h .upper, h .lower⟩⟩

/-- A panel started with its start counted, and its first row opened (R109). -/
theorem openRow_startPanel {m : Loom} {s : State} {k : Slot} {l : Lot} (hl : HasLot s k l)
    (hi : (s.station (loomSta m)).lot = some l.number) (c : NetLot) :
    openRow m (startPanel m c s) =
      (s.setLot k (some { l with started := l.started + 1 })).setLoom m
        (nextPanel c (s.settings.needles[m] - 1) (s.loom m)) := by
  have hadd : addStart l.number s = s.setLot k (some { l with started := l.started + 1 }) := modLot_of_hasLot hl _
  unfold startPanel openRow modLoom LoomPos.atHead State.needles
  rw [loomLot_eq hi, hadd, clampNat_zero, clampNat_zero, State.setLoom_loom_self, setLoom_setLoom]
  rfl

/-- The loom knots on from the position `q`, and the answer is the order of its row (R111). -/
def knotsFrom (m : Loom) (q : LoomPos) (s : State) : Served :=
  (writeStation (loomSta m) { s.station (loomSta m) with state := .knotting } (s.setLoom m q), .ok, q.order.bytes)

theorem knotsFrom_of_move (m : Loom) (q : LoomPos) (s : State) :
    (let u := moveTo (loomSta m) .knotting (s.setLoom m q); tell (u.loom m).order.bytes u) = knotsFrom m q s := by
  dsimp only
  rw [moveTo_eq_writeStation, writeStation_loom, State.setLoom_loom_self]
  rfl

theorem knotsFrom_noticed (m : Loom) (q : LoomPos) (s : State) : Noticed s (knotsFrom m q s).1 :=
  (setLoom_noticed ..).trans (writeStation_noticed ..)

theorem runLoom_resting {m : Loom} {s : State} (h : (s.station (loomSta m)).state ≠ .standby) :
    runLoom m s = refuse .wrongState s := if_pos h

section
variable {m : Loom} {s : State} (hst : (s.station (loomSta m)).state = .standby)
include hst

theorem runLoom_unfed (hfeeds : feedsMounted (loomSta m) s = false) : runLoom m s = refuse .feedMissing s := by
  unfold runLoom
  dsimp only
  rw [if_neg (not_not.mpr hst), if_pos hfeeds]

variable (hfeeds : feedsMounted (loomSta m) s = true)
include hfeeds

/-- A panel in progress goes on at its row. -/
theorem runLoom_goesOn (hpanel : (s.loom m).inPanel = true) :
    runLoom m s = knotsFrom m { s.loom m with openRow := true } s := by
  unfold runLoom
  dsimp only
  rw [if_neg (not_not.mpr hst), if_neg (by simp [hfeeds]), if_pos hpanel]
  exact knotsFrom_of_move ..

variable (hpanel : (s.loom m).inPanel = false) {k : Slot} {l : Lot} {c : NetLot} (hl : HasLot s k l)
  (hi : (s.station (loomSta m)).lot = some l.number) (hc : l.build = .net c)
include hpanel hl hi hc

/-- Without a panel in progress the lot table is asked for a start (R109). -/
theorem runLoom_asks :
    runLoom m s =
      if canStart l.number s then
        (let u := moveTo (loomSta m) .knotting (openRow m (startPanel m c s))
         tell (u.loom m).order.bytes u)
      else refuse .lotEnd s := by
  unfold runLoom
  dsimp only
  rw [if_neg (not_not.mpr hst), if_neg (by simp [hfeeds]), if_neg (by simp [hpanel]), loomLot_eq hi, net_eq_some hl hi hc]
  cases canStart l.number s <;> rfl

theorem runLoom_starts (hlt : l.started < c.ordered) (hcl : l.state ≠ .closed) :
    runLoom m s =
      knotsFrom m (nextPanel c (s.settings.needles[m] - 1) (s.loom m))
        (s.setLot k (some { l with started := l.started + 1 })) := by
  have hyes : canStart l.number s = true := (canStart_iff hl).mpr ⟨by rw [hc]; exact hlt, hcl⟩
  rw [runLoom_asks hst hfeeds hpanel hl hi hc, if_pos hyes, openRow_startPanel hl hi]
  exact knotsFrom_of_move ..

theorem runLoom_lotEnd (h : c.ordered ≤ l.started ∨ l.state = .closed) : runLoom m s = refuse .lotEnd s := by
  have hno : ¬canStart l.number s = true := by
    rw [canStart_iff hl, hc]
    rintro ⟨hlt, hcl⟩
    exact h.elim (Nat.not_le.mpr hlt) hcl
  rw [runLoom_asks hst hfeeds hpanel hl hi hc, if_neg hno]

end

end Sys2Proof.Laws

namespace Sys2Proof.Proofs

open Sys2Proof.Machine Sys2Proof.Safety Sys2Proof.Laws

/-- Settles O35: each branch is the equation of `runLoom` for it, read in the state that the frame's arrival leaves. -/
theorem runStartsTheLoom : Obligations.RunStartsTheLoom := by
  intro p m s hL hS i r q a order ready
  have harr : Arrived s a := validArrival_arrived p s
  have hr : a.station (loomSta m) = r := harr.station _
  have hq : a.loom m = q := harr.loom m
  have hfeeds : feedsMounted (loomSta m) a = true ↔ ready := by rw [harr.placesMounted, loomFeedsMounted_iff]
  have answers {code : Code} {payload : List Byte} {u : State} (h : runLoom m a = (u, code, payload)) (hu : Noticed a u) :
      Answers p 0x28 code payload (.stationRun p (staByte i)) s u :=
    answers_of_steered (r := .stationRun (staByte i)) hL hS rfl rfl rfl ((serveStationRun_loom m a).trans h) hu
  refine ⟨fun hst => ?_, fun hst hready => ?_, fun hst hready hpanel => ?_, fun k l c hst hready hpanel hl hi hc => ?_⟩
  · exact answers (runLoom_resting (hr ▸ hst)) (.refl a)
  · exact answers (runLoom_unfed (hr ▸ hst) (Bool.eq_false_iff.mpr fun h => hready (hfeeds.mp h))) (.refl a)
  · have hrun := runLoom_goesOn (hr ▸ hst) (hfeeds.mpr hready) (hq ▸ hpanel)
    have hnoticed := knotsFrom_noticed m { a.loom m with openRow := true } a
    rw [hq] at hrun hnoticed
    exact hr ▸ answers hrun hnoticed
  · have hla : HasLot a k l := harr.hasLot hl
    have hia : (a.station (loomSta m)).lot = some l.number := hr ▸ hi
    refine ⟨fun hlt hcl => ?_, fun h => ?_⟩
    · have hrun := runLoom_starts (hr ▸ hst) (hfeeds.mpr hready) (hq ▸ hpanel) hla hia hc hlt hcl
      have hnoticed := (setLot_noticed k (some { l with started := l.started + 1 }) a).trans (knotsFrom_noticed m
        (nextPanel c (a.settings.needles[m] - 1) (a.loom m)) _)
      rw [hq, harr.settings] at hrun hnoticed
      exact hr ▸ answers hrun hnoticed
    · exact answers (runLoom_lotEnd (hr ▸ hst) (hfeeds.mpr hready) (hq ▸ hpanel) hla hia hc h) (.refl a)

end Sys2Proof.Proofs
end

section
/-! SEGMENT_WRITE and frozen segments (O41). -/

namespace Sys2Proof.Laws

open Sys2Proof.Machine Sys2Proof.Safety

/-! ## Paths along next (R103) -/

/-- A path leads from `head` to `i` in `n` steps along next, through segments that hold rows. -/
def Reaches (segs : SegIx → Segment) (head i : SegIx) (n : Nat) (path : Nat → SegIx) : Prop :=
  path 0 = head ∧ path n = i ∧ ∀ m, m < n → 0 < (segs (path m)).rows ∧ (segs (path m)).next = some (path (m + 1))

namespace Reaches

variable {segs : SegIx → Segment} {head i : SegIx} {n : Nat} {path : Nat → SegIx}

/-- Where a path stands twice on a segment it goes on alike. -/
theorem shift (h : Reaches segs head i n path) {a b : Nat} (e : path a = path b) (d : Nat) (ha : a + d ≤ n)
    (hb : b + d ≤ n) : path (a + d) = path (b + d) := by
  obtain ⟨-, -, hstep⟩ := h
  induction d with
  | zero => exact e
  | succ d ih =>
    obtain ⟨-, hnext⟩ := hstep (a + d) (by omega)
    obtain ⟨-, hnext'⟩ := hstep (b + d) (by omega)
    rw [ih (by omega) (by omega), hnext'] at hnext
    exact (Option.some.inj hnext).symm

/-- A path that stands twice on a segment arrives sooner without its loop. -/
theorem skipLoop (h : Reaches segs head i n path) {a b : Nat} (hab : a < b) (hb : b ≤ n) (e : path a = path b) :
    Reaches segs head i (a + (n - b)) path := by
  have hend : path (a + (n - b)) = path n := by
    rw [h.shift e (n - b) (by omega) (by omega), show b + (n - b) = n by omega]
  obtain ⟨hhead, htail, hstep⟩ := h
  exact ⟨hhead, hend.trans htail, fun m hm => hstep m (by omega)⟩

/-- A path longer than the plan memory stands twice on a segment, so a segment that is reached is reached in fewer steps than
there are segments. -/
theorem exists_lt_card (h : Reaches segs head i n path) : ∃ m, m < 64 ∧ Reaches segs head i m path := by
  induction n using Nat.strong_induction_on with
  | _ n ih =>
    by_cases hn : n < 64
    · exact ⟨n, hn, h⟩
    · have hcard : Fintype.card SegIx < Fintype.card (Fin (n + 1)) := by
        rw [Fintype.card_fin, Fintype.card_fin]; omega
      obtain ⟨a, b, hne, e⟩ := Fintype.exists_ne_map_eq_of_card_lt (fun m : Fin (n + 1) => path m.val) hcard
      rcases Nat.lt_or_gt_of_ne (Fin.val_ne_of_ne hne) with hab | hab
      · exact ih _ (by omega) (h.skipLoop hab (by omega) e)
      · exact ih _ (by omega) (h.skipLoop hab (by omega) e.symm)

end Reaches

theorem exists_reaches_zero {segs : SegIx → Segment} {head i : SegIx} :
    (∃ path, Reaches segs head i 0 path) ↔ i = head :=
  ⟨fun ⟨_, hhead, hi, _⟩ => hi.symm.trans hhead,
    fun h => ⟨fun _ => head, rfl, h.symm, fun _ hm => absurd hm (Nat.not_lt_zero _)⟩⟩

/-- A path of one step more begins with a step from a segment that holds rows. -/
theorem exists_reaches_succ {segs : SegIx → Segment} {head i : SegIx} {n : Nat} :
    (∃ path, Reaches segs head i (n + 1) path) ↔
      0 < (segs head).rows ∧ ∃ j, (segs head).next = some j ∧ ∃ path, Reaches segs j i n path := by
  constructor
  · rintro ⟨path, rfl, hi, hstep⟩
    obtain ⟨hrows, hnext⟩ := hstep 0 (Nat.succ_pos n)
    exact ⟨hrows, path 1, hnext, fun m => path (m + 1), rfl, hi, fun m hm => hstep (m + 1) (by omega)⟩
  · rintro ⟨hrows, j, hnext, path, hj, hi, hstep⟩
    refine ⟨before head path, rfl, hi, fun m hm => ?_⟩
    cases m with
    | zero => exact ⟨hrows, hnext.trans (congrArg some hj.symm)⟩
    | succ m => exact hstep m (by omega)

/-! ## The segments a walk finds -/

theorem mem_reach_succ {segs : SegIx → Segment} {fuel : Nat} {head i : SegIx} :
    i ∈ reach segs (fuel + 1) head ↔
      i = head ∨ 0 < (segs head).rows ∧ ∃ j, (segs head).next = some j ∧ i ∈ reach segs fuel j := by
  rw [reach, List.mem_cons]
  refine or_congr_right ?_
  split
  · next hz => simp [hz]
  · next hz =>
    cases (segs head).next with
    | none => simp
    | some j => simp [Nat.pos_of_ne_zero hz]

/-- A walk of `fuel` segments finds those that a path reaches in fewer steps. -/
theorem mem_reach_iff {segs : SegIx → Segment} {fuel : Nat} {head i : SegIx} :
    i ∈ reach segs fuel head ↔ ∃ n, n < fuel ∧ ∃ path, Reaches segs head i n path := by
  induction fuel generalizing head with
  | zero => simp [reach]
  | succ fuel ih =>
    rw [mem_reach_succ, Nat.exists_lt_succ_left, exists_reaches_zero]
    simp only [ih, exists_reaches_succ]
    refine or_congr_right ⟨?_, ?_⟩
    · rintro ⟨hrows, j, hnext, n, hn, hpath⟩
      exact ⟨n, hn, hrows, j, hnext, hpath⟩
    · rintro ⟨n, hn, hrows, j, hnext, hpath⟩
      exact ⟨hrows, j, hnext, n, hn, hpath⟩

theorem mem_reach_card_iff {segs : SegIx → Segment} {head i : SegIx} :
    i ∈ reach segs 64 head ↔ ∃ n path, Reaches segs head i n path := by
  rw [mem_reach_iff]
  constructor
  · rintro ⟨n, -, hpath⟩
    exact ⟨n, hpath⟩
  · rintro ⟨n, path, h⟩
    obtain ⟨m, hm, h'⟩ := h.exists_lt_card
    exact ⟨m, hm, path, h'⟩

/-! ## Freezing (R103) -/

theorem freezingHead_eq_some {l : Lot} {head : SegIx} :
    l.freezingHead = some head ↔ ∃ c, l.build = .net c ∧ l.state ≠ .draft ∧ l.state ≠ .closed ∧ c.head = head := by
  unfold Lot.freezingHead
  cases l.build with
  | strand c | rope c => simp
  | net c => cases l.state <;> simp

theorem frozen_iff {i : SegIx} {s : State} :
    frozen i s = true ↔
      ∃ (k : Slot) (l : Lot) (head : SegIx),
        s.lots[k] = some l ∧ l.freezingHead = some head ∧ i ∈ reach s.segment 64 head := by
  unfold frozen allSlots
  rw [List.any_eq_true]
  refine exists_congr fun k => ?_
  rw [and_iff_right (List.mem_finRange k)]
  cases hl : s.lots[k] with
  | none => simp
  | some l =>
    cases hh : l.freezingHead with
    | none => simp [hh]
    | some head => simp [hh]

theorem Arrived.frozen {s a : State} (h : Arrived s a) (i : SegIx) : frozen i a = Machine.frozen i s := by
  rw [h]; rfl

/-! ## The request (R104) -/

theorem linkOf_eq_none {b : Byte} (h : 63 < b.toNat ∧ b ≠ 0xFF) : linkOf b = none := by
  unfold linkOf
  rw [dif_neg (by omega), if_neg h.2]

theorem linkOf_eq_some {b : Byte} (h : b.toNat < 64 ∨ b = 0xFF) :
    linkOf b = some (if h : b.toNat < 64 then some ⟨b.toNat, h⟩ else none) := by
  unfold linkOf
  split
  · rfl
  · next hb => exact if_pos (h.resolve_left hb)

theorem serveSegmentWrite_outOfRange {index left right next : Byte}
    (h : 63 < index.toNat ∨ TaperStep.ofByte left = none ∨ TaperStep.ofByte right = none ∨ (63 < next.toNat ∧ next ≠ 0xFF))
    (rows : BitVec 16) (stepRows : Byte) (s : State) :
    serveSegmentWrite index rows left right stepRows next s = refuse .outOfRange s := by
  unfold serveSegmentWrite
  split
  · next hi =>
    rcases h with h | h | h | h
    · omega
    · rw [h]
    · rw [h]; cases TaperStep.ofByte left <;> rfl
    · rw [linkOf_eq_none h]; cases TaperStep.ofByte left <;> cases TaperStep.ofByte right <;> rfl
  · rfl

theorem serveSegmentWrite_inRange {left right next : Byte} {l r : TaperStep} (hl : TaperStep.ofByte left = some l)
    (hr : TaperStep.ofByte right = some r) (hn : next.toNat < 64 ∨ next = 0xFF) (i : SegIx) (rows : BitVec 16)
    (stepRows : Byte) (s : State) :
    serveSegmentWrite (BitVec.ofNat 8 i.val) rows left right stepRows next s =
      if frozen i s then refuse .lotFrozen s
      else
        (s.setSegment i
          { rows := min 4095 rows.toNat, left := l, right := r, stepRows := max 1 (min 63 stepRows.toNat)
            next := if h : next.toNat < 64 then some ⟨next.toNat, h⟩ else none },
          if min 4095 rows.toNat = rows.toNat ∧ max 1 (min 63 stepRows.toNat) = stepRows.toNat then .ok else .clamped, []) := by
  have hi : (BitVec.ofNat 8 i.val).toNat = i.val := by rw [BitVec.toNat_ofNat]; omega
  unfold serveSegmentWrite
  simp only [hi, dif_pos i.isLt, hl, hr, linkOf_eq_some hn, clampNat_eq (Nat.zero_le 4095),
    clampNat_eq (show 1 ≤ 63 by decide), Nat.zero_max, Fin.eta]

end Sys2Proof.Laws

namespace Sys2Proof.Proofs

open Sys2Proof.Machine Sys2Proof.Safety Sys2Proof.Laws

/-- Settles O41: a walk of 64 segments finds all that a path of any length reaches (`mem_reach_card_iff`), and the request is
answered by its ranges and the freezing. -/
theorem segmentWriteRespectsFreezing : Obligations.SegmentWriteRespectsFreezing := by
  refine ⟨fun i s => ?_, fun p rows left right stepRows next s hL => ?_⟩
  · rw [frozen_iff]
    simp only [freezingHead_eq_some, mem_reach_card_iff]
    constructor
    · rintro ⟨k, l, _, hl, ⟨c, hc, hd, hcl, rfl⟩, n, path, hpath⟩
      exact ⟨k, l, c, n, path, hl, hc, hd, hcl, hpath⟩
    · rintro ⟨k, l, c, n, path, hl, hc, hd, hcl, hpath⟩
      exact ⟨k, l, c.head, hl, ⟨c, hc, hd, hcl, rfl⟩, n, path, hpath⟩
  have harr : Arrived s (validArrival p s) := validArrival_arrived p s
  refine ⟨fun index h => ?_, fun i l r hl hr hn => ?_⟩
  · exact answers_of_free (r := .segmentWrite index rows left right stepRows next) hL rfl rfl rfl
      (serveSegmentWrite_outOfRange h ..) (.refl _)
  · intro g
    have hserve := serveSegmentWrite_inRange hl hr hn i rows stepRows (validArrival p s)
    rw [harr.frozen] at hserve
    have writes {code : Code} {u : State}
        (h : serveSegmentWrite (BitVec.ofNat 8 i.val) rows left right stepRows next (validArrival p s) = (u, code, []))
        (hu : Noticed (validArrival p s) u) :
        Answers p 0x40 code [] (.segmentWrite p (BitVec.ofNat 8 i.val) rows left right stepRows next) s u :=
      answers_of_free (r := .segmentWrite (BitVec.ofNat 8 i.val) rows left right stepRows next) hL rfl rfl rfl h hu
    refine ⟨fun hf => writes (hserve.trans (if_pos hf)) (.refl _), fun hf => ?_⟩
    rw [hf] at hserve
    exact writes hserve (.of_ports rfl rfl)

end Sys2Proof.Proofs
end

section
/-! ROW_REPORT out of turn, and the hold (O43). -/

namespace Sys2Proof.Laws

open Sys2Proof.Machine Sys2Proof.Safety

/-! ## Reports that take no row (R113) -/

theorem serveRowReport_elsewhere {i : Sta} (h0 : i ≠ loomSta 0) (h1 : i ≠ loomSta 1) (row : BitVec 24) (knots : BitVec 256)
    (s : State) : serveRowReport (staByte i) row knots s = refuse .outOfRange s := by
  have hno : (staOf (staByte i)).bind loomOf = none := by clear * - h0 h1; revert i; decide
  unfold serveRowReport
  rw [hno]

theorem serveRowReport_unlotted {m : Loom} {s : State} (h : (s.station (loomSta m)).lot = none) (row : BitVec 24)
    (knots : BitVec 256) : serveRowReport (staByte (loomSta m)) row knots s = refuse .wrongState s := by
  have hnet : s.net m = none := by
    unfold State.net State.lotOf
    rw [h]
    rfl
  unfold serveRowReport
  rw [staOf_loomSta]
  dsimp only
  rw [hnet]

section
variable {m : Loom} {s : State} {c : NetLot} (hnet : s.net m = some c)
include hnet

theorem serveRowReport_otherRow {row : BitVec 24} (hopen : (s.loom m).openRow = true) (hrow : row.toNat ≠ (s.loom m).row)
    (knots : BitVec 256) :
    serveRowReport (staByte (loomSta m)) row knots s =
      (s, .outOfSequence, rowAnswerBytes .none (some (s.loom m).order)) := by
  unfold serveRowReport
  rw [staOf_loomSta]
  dsimp only
  rw [hnet]
  dsimp only
  rw [if_pos hopen, if_neg hrow]

theorem serveRowReport_noneTaken (hclosed : (s.loom m).openRow = false) (htaken : (s.loom m).lastTaken = none)
    (row : BitVec 24) (knots : BitVec 256) :
    serveRowReport (staByte (loomSta m)) row knots s = (s, .outOfSequence, rowAnswerBytes .none none) := by
  unfold serveRowReport
  rw [staOf_loomSta]
  dsimp only
  rw [hnet]
  dsimp only
  rw [hclosed, htaken]
  rfl

theorem serveRowReport_afterTaken {n : Nat} {d : Directive} {o : Option RowOrder} (hclosed : (s.loom m).openRow = false)
    (htaken : (s.loom m).lastTaken = some n) (hlast : (s.loom m).lastAnswer = some (d, o)) (row : BitVec 24)
    (knots : BitVec 256) :
    serveRowReport (staByte (loomSta m)) row knots s =
      if row.toNat = n then (s, .rowTaken, rowAnswerBytes d o) else (s, .outOfSequence, rowAnswerBytes .none none) := by
  unfold serveRowReport
  rw [staOf_loomSta]
  dsimp only
  rw [hnet]
  dsimp only
  rw [hclosed, htaken, hlast]
  rfl

end

/-! ## The hold (R118) -/

/-- The advance opens no row. -/
theorem advance_openRow {q x : LoomPos} {segs : SegIx → Segment} (h : q.advance segs = some x) : x.openRow = q.openRow := by
  unfold LoomPos.advance at h
  split at h
  · cases h; rfl
  · split at h
    · split at h
      · cases h; rfl
      · cases h
    · cases h

/-- The position that a hold leaves: at the next row or at the panel's end, with no row opened. -/
theorem held_openRow (m : Loom) (c : NetLot) (q : LoomPos) (knots : BitVec 256) (s : State) (segs : SegIx → Segment) :
    (((rowPos m c q knots s).advance segs).getD { rowPos m c q knots s with endPending := true }).openRow = false := by
  cases hadv : (rowPos m c q knots s).advance segs with
  | none => rfl
  | some x => exact advance_openRow hadv

end Sys2Proof.Laws

namespace Sys2Proof.Proofs

open Sys2Proof.Machine Sys2Proof.Safety Sys2Proof.Laws

/-- Settles O43: a report that takes no row is answered from the loom's position, which stays; a hold is the first case of
`rowDirected`. -/
theorem rowReportsOutOfTurn : Obligations.RowReportsOutOfTurn := by
  have reports {p : Port} {i : Sta} {row : BitVec 24} {knots : BitVec 256} {s u : State} {code : Code}
      {payload : List Byte} (hL : Listens p s) (hS : Steers p i s)
      (h : serveRowReport (staByte i) row knots (validArrival p s) = (u, code, payload))
      (hu : Noticed (validArrival p s) u) : Answers p 0x42 code payload (.rowReport p (staByte i) row knots) s u :=
    answers_of_steered (r := .rowReport (staByte i) row knots) hL hS rfl rfl rfl h hu
  refine ⟨fun p i row knots s hL hS h0 h1 => ?_, fun p m row knots s hL hS => ?_⟩
  · exact reports hL hS (serveRowReport_elsewhere h0 h1 ..) (.refl _)
  intro b q answer order
  have harr : Arrived s (validArrival p s) := validArrival_arrived p s
  have hq : (validArrival p s).loom m = q := harr.loom m
  have hsta := harr.station (loomSta m)
  refine ⟨fun hlot => ?_, fun k l c hl hi hc => ?_⟩
  · exact reports hL hS (serveRowReport_unlotted (hsta ▸ hlot) ..) (.refl _)
  have hnet : (validArrival p s).net m = some c := net_eq_some (harr.hasLot hl) (hsta ▸ hi) hc
  refine ⟨fun hopen hrow => ?_, fun hclosed htaken => ?_, fun n d o hclosed htaken hlast => ?_, fun hopen hrow hhold => ?_⟩
  · have hserve := serveRowReport_otherRow hnet (hq ▸ hopen) (hq ▸ hrow) knots
    rw [hq] at hserve
    exact reports hL hS hserve (.refl _)
  · exact reports hL hS (serveRowReport_noneTaken hnet (hq ▸ hclosed) (hq ▸ htaken) row knots) (.refl _)
  · have hserve := serveRowReport_afterTaken hnet (hq ▸ hclosed) (hq ▸ htaken) (hq ▸ hlast) row knots
    exact ⟨fun hrow => reports hL hS (hserve.trans (if_pos hrow)) (.refl _),
      fun hrow => reports hL hS (hserve.trans (if_neg hrow)) (.refl _)⟩
  · have hserve := serveRowReport_arrived harr hl hi hc hopen hrow knots
    rw [decide_eq_true hhold, rowDirected_hold] at hserve
    have hans := reports hL hS hserve
      ((((rowTold_noticed ..).trans (setLot_noticed ..)).trans (setLoom_noticed ..)).trans (writeStation_noticed ..))
    refine ⟨_, hans, ?_, ?_, ?_, ?_⟩
    · rw [writeStation_station]
    · rw [writeStation_loom, State.setLoom_loom_self]
      exact held_openRow ..
    · rw [writeStation_loom, State.setLoom_loom_self]
    · rw [writeStation_loom, State.setLoom_loom_self]

end Sys2Proof.Proofs
end

section
/-! KNOT_FAULT_READ and NOTICE_READ (O45). -/

namespace Sys2Proof.Laws

open Sys2Proof.Machine Sys2Proof.Safety

/-- A list of the oldest entries, as an answer carries it: how many there are, then the entries. -/
theorem listBytes_take {α : Type} (f : α → List Byte) (n : Nat) (xs : List α) :
    listBytes f (xs.take n) = BitVec.ofNat 8 (min n xs.length) :: (xs.take n).flatMap f := by
  unfold listBytes
  rw [u1_eq, List.length_take]
  rfl

theorem serveNoticeRead_badCount {count : Byte} (h : count.toNat < 1 ∨ 4 < count.toNat) (p : Port) (s : State) :
    serveNoticeRead p count s = refuse .outOfRange s := if_pos h

theorem serveNoticeRead_oldest {count : Byte} (h : ¬(count.toNat < 1 ∨ 4 < count.toNat)) (p : Port) (s : State) :
    serveNoticeRead p count s =
      (s.setQueue p ((s.queue p).drop count.toNat), .ok,
        BitVec.ofNat 8 (min count.toNat (s.queue p).length) :: ((s.queue p).take count.toNat).flatMap Entry.bytes) := by
  rw [← listBytes_take]
  exact if_neg h

theorem serveKnotFaultRead_elsewhere {b : Byte} (h5 : b ≠ 5) (h6 : b ≠ 6) (count : Byte) (s : State) :
    serveKnotFaultRead b count s = refuse .outOfRange s := by
  unfold serveKnotFaultRead
  rw [not_loom_byte h5 h6]

theorem serveKnotFaultRead_badCount {count : Byte} (h : count.toNat < 1 ∨ 4 < count.toNat) (b : Byte) (s : State) :
    serveKnotFaultRead b count s = refuse .outOfRange s := by
  unfold serveKnotFaultRead
  split
  · rfl
  · exact if_pos h

theorem serveKnotFaultRead_oldest {count : Byte} (h : ¬(count.toNat < 1 ∨ 4 < count.toNat)) (m : Loom) (s : State) :
    serveKnotFaultRead (staByte (loomSta m)) count s =
      (s.setLoom m { s.loom m with faults := (s.loom m).faults.drop count.toNat, overflow := false }, .ok,
        BitVec.ofNat 8 (min count.toNat (s.loom m).faults.length) ::
            ((s.loom m).faults.take count.toNat).flatMap KnotFault.bytes ++ [if (s.loom m).overflow then 1 else 0]) := by
  unfold serveKnotFaultRead
  rw [staOf_loomSta, ← listBytes_take]
  exact if_neg h

end Sys2Proof.Laws

namespace Sys2Proof.Proofs

open Sys2Proof.Machine Sys2Proof.Safety Sys2Proof.Laws

/-- Settles O45: both reads refuse their counts alike, and answer with the entries they take from the front. -/
theorem readsThatRemove : Obligations.ReadsThatRemove := by
  intro p count s hL a
  have notices {code : Code} {payload : List Byte} {u : State} (h : serveNoticeRead p count a = (u, code, payload))
      (hu : Noticed a u) : Answers p 0x60 code payload (.noticeRead p count) s u :=
    answers_of_free (r := .noticeRead count) hL rfl rfl rfl h hu
  have faults {b : Byte} {code : Code} {payload : List Byte} {u : State}
      (h : serveKnotFaultRead b count a = (u, code, payload)) (hu : Noticed a u) :
      Answers p 0x44 code payload (.knotFaultRead p b count) s u :=
    answers_of_free (r := .knotFaultRead b count) hL rfl rfl rfl h hu
  refine ⟨fun h => ⟨?_, fun b => ?_⟩, fun b h5 h6 => ?_, fun hone hfour => ?_⟩
  · exact notices (serveNoticeRead_badCount h ..) (.refl a)
  · exact faults (serveKnotFaultRead_badCount h ..) (.refl a)
  · exact faults (serveKnotFaultRead_elsewhere h5 h6 ..) (.refl a)
  · have hcount : ¬(count.toNat < 1 ∨ 4 < count.toNat) := by omega
    refine ⟨notices (serveNoticeRead_oldest hcount p a) (.of_ports rfl rfl), fun m => ?_⟩
    rw [← (validArrival_arrived p s).loom m]
    exact faults (serveKnotFaultRead_oldest hcount m a) (setLoom_noticed ..)

end Sys2Proof.Proofs
end

section
/-! What the order of the coiling unit depends on (R127, R150, R152): the view of a state that the lists, the tags and the
sharing of the arbors are read from. -/

namespace Sys2Proof.Laws

open Sys2Proof.Machine Sys2Proof.Safety

/-! ## The view -/

/-- What is seen of an arbor: the phase and the tag of its coil, if it holds one. -/
abbrev Seen := Option (ArborPhase × Option Nat)

/-- An arbor as it is seen. -/
def seen : Arbor → Seen
  | .free => none
  | .busy ph c => some (ph, c.tag)

theorem seen_busy (ph : ArborPhase) (c : Coil) : seen (.busy ph c) = some (ph, c.tag) := rfl

/-- What the order of the coiling unit depends on: the arbors, the free tags, the tags of the outbound coils, and whether C0
holds CUT_STOP. -/
@[ext] structure Coiling where
  arbor : ArborId → Seen
  tags : List Nat
  outbound : List (Option Nat)
  cut : Bool

/-- The view of a coiling unit beside the stations. -/
def coilingOf (k : Coiler) (stations : Vector Station 8) : Coiling :=
  { arbor := fun id => seen (k.arbor id), tags := k.tags, outbound := k.outbound.map Coil.tag
    cut := hasCause stations[staC0].causes .cutStop }

/-- The view of a state. -/
def coiling (s : State) : Coiling := coilingOf s.coiler s.stations

theorem coiling_arbor (s : State) (id : ArborId) : (coiling s).arbor id = seen (s.arbor id) := rfl
theorem coiling_outbound (s : State) : (coiling s).outbound = s.coiler.outbound.map Coil.tag := rfl
theorem coiling_cut (s : State) : (coiling s).cut = s.has staC0 .cutStop := rfl

/-- The view with one arbor seen otherwise. -/
def Coiling.put (v : Coiling) (id : ArborId) (x : Seen) : Coiling :=
  { v with arbor := fun j => if j = id then x else v.arbor j }

theorem other_ne (id : ArborId) : id.other ≠ id := by cases id <;> decide
theorem other_other (id : ArborId) : id.other.other = id := by cases id <;> rfl

@[simp] theorem Coiling.put_self (v : Coiling) (id : ArborId) (x : Seen) :
    (v.put id x).arbor id = x := if_pos rfl
@[simp] theorem Coiling.put_other (v : Coiling) (id : ArborId) (x : Seen) :
    (v.put id x).arbor id.other = v.arbor id.other := if_neg (other_ne id)
@[simp] theorem Coiling.put_tags (v : Coiling) (id : ArborId) (x : Seen) :
    (v.put id x).tags = v.tags := rfl
@[simp] theorem Coiling.put_outbound (v : Coiling) (id : ArborId) (x : Seen) :
    (v.put id x).outbound = v.outbound := rfl
@[simp] theorem Coiling.put_cut (v : Coiling) (id : ArborId) (x : Seen) :
    (v.put id x).cut = v.cut := rfl

theorem Coiling.put_arbor (v : Coiling) (id : ArborId) : v.put id (v.arbor id) = v := by
  unfold Coiling.put
  congr 1
  funext j
  split
  · next h => rw [h]
  · rfl

/-! ## The order of the unit, said of the view -/

/-- The tag of an arbor as it is seen. -/
def seenTag (x : Seen) : List Nat := (x.bind Prod.snd).toList

/-- An arbor as it is seen is in a phase of which `f` holds. -/
def seenIn (f : ArborPhase → Bool) (x : Seen) : Bool := x.any fun y => f y.1

/-- PACKING or POSTING, and CUTTING. -/
def phasePacks : ArborPhase → Bool
  | .packing | .posting => true
  | _ => false
def phaseCuts : ArborPhase → Bool
  | .cutting => true
  | _ => false

/-- Every tag of the unit (R150). -/
def Coiling.places (v : Coiling) : List Nat :=
  v.tags ++ (seenTag (v.arbor .a) ++ seenTag (v.arbor .b) ++ v.outbound.filterMap id)

/-- The lists in their sizes (R150, R152). -/
def Coiling.Listed (v : Coiling) : Prop :=
  v.tags.length ≤ 32 ∧ (∀ t ∈ v.tags, 1 ≤ t ∧ t ≤ 16777215) ∧ v.outbound.length ≤ 12

/-- The arbors share the work (R127), said of an arbor and the other one. -/
def Coiling.Shares (v : Coiling) : Prop :=
  (∀ id : ArborId, seenIn ArborPhase.receives (v.arbor id) = true → seenIn ArborPhase.receives (v.arbor id.other) = false) ∧
    (∀ id : ArborId, seenIn phasePacks (v.arbor id) = true → seenIn phasePacks (v.arbor id.other) = false) ∧
    ∀ id : ArborId, seenIn phaseCuts (v.arbor id) = true → v.cut = true

theorem seenIn_receives (r : Arbor) : seenIn ArborPhase.receives (seen r) = r.receives := by cases r <;> rfl

theorem seenIn_packs (r : Arbor) : seenIn phasePacks (seen r) = packed r := by
  cases r with
  | free => rfl
  | busy ph c => cases ph <;> rfl

theorem seenIn_cuts (r : Arbor) : seenIn phaseCuts (seen r) = r.isCutting := by
  cases r with
  | free => rfl
  | busy ph c => cases ph <;> rfl

theorem coilerListsOk_iff (k : Coiler) (stations : Vector Station 8) : CoilerListsOk k ↔ (coilingOf k stations).Listed := by
  unfold CoilerListsOk Coiling.Listed coilingOf
  rw [List.length_map]

theorem filterMap_coil_tag (r : Arbor) : ([r].filterMap Arbor.coil?).filterMap Coil.tag = seenTag (seen r) := by
  cases r with
  | free => rfl
  | busy ph c => cases h : c.tag <;> simp [Arbor.coil?, seen, seenTag, h]

theorem tagsOf_eq (k : Coiler) (stations : Vector Station 8) : tagsOf k = (coilingOf k stations).places := by
  have arbors : ([k.a, k.b].filterMap Arbor.coil?).filterMap Coil.tag = seenTag (seen k.a) ++ seenTag (seen k.b) := by
    rw [← filterMap_coil_tag, ← filterMap_coil_tag, ← List.filterMap_append, ← List.filterMap_append]
    rfl
  have outbound : k.outbound.filterMap Coil.tag = (k.outbound.map Coil.tag).filterMap id := by
    rw [List.filterMap_map]
    rfl
  unfold tagsOf
  rw [List.filterMap_append, arbors, outbound]
  rfl

theorem arbor_cases (j k : ArborId) : k = j ∨ k = j.other := by cases j <;> cases k <;> decide

/-- What holds of no arbor beside the other, said from one arbor. -/
theorem forall_other_iff (f : ArborId → Bool) (j : ArborId) :
    (∀ k : ArborId, f k = true → f k.other = false) ↔ (f j = true → f j.other = false) := by
  refine ⟨fun h => h j, fun h k hk => ?_⟩
  rcases arbor_cases j k with rfl | rfl
  · exact h hk
  · rw [other_other, ← Bool.not_eq_true]
    intro hj
    rw [h hj] at hk
    cases hk

theorem arborsShare_iff (k : Coiler) (stations : Vector Station 8) :
    ArborsShare k stations ↔ (coilingOf k stations).Shares := by
  have cuts : (k.a.isCutting = true ∨ k.b.isCutting = true → hasCause stations[staC0].causes .cutStop = true) ↔
      ∀ id : ArborId, (k.arbor id).isCutting = true → hasCause stations[staC0].causes .cutStop = true :=
    ⟨fun h id hid => h (by cases id; exacts [.inl hid, .inr hid]), fun h hid => hid.elim (h .a) (h .b)⟩
  unfold ArborsShare Coiling.Shares coilingOf
  simp only [seenIn_receives, seenIn_packs, seenIn_cuts]
  rw [forall_other_iff (fun id => (k.arbor id).receives) .a, forall_other_iff (fun id => packed (k.arbor id)) .a, cuts,
    not_and, not_and, Bool.not_eq_true, Bool.not_eq_true]
  rfl

/-! ## What keeps the order -/

/-- `w` is in order where `v` is; the sharing of the arbors under an assumption `q`. -/
structure OrderKept (q : Prop) (v w : Coiling) : Prop where
  listed : v.Listed → w.Listed
  apart : v.places.Nodup → w.places.Nodup
  shares : q → v.Shares → w.Shares

theorem OrderKept.refl {q : Prop} (v : Coiling) : OrderKept q v v := ⟨id, id, fun _ => id⟩

theorem OrderKept.trans {q : Prop} {u v w : Coiling} (h : OrderKept q u v) (k : OrderKept q v w) : OrderKept q u w :=
  ⟨k.listed ∘ h.listed, k.apart ∘ h.apart, fun hq => k.shares hq ∘ h.shares hq⟩

theorem OrderKept.of_eq {q : Prop} {v w : Coiling} (h : w = v) : OrderKept q v w := h.symm ▸ .refl v

/-- Tags of which no more stand than before are apart where they were. -/
theorem nodup_of_count {xs ys : List Nat} (h : ∀ t, ys.count t ≤ xs.count t) (hxs : xs.Nodup) : ys.Nodup :=
  List.nodup_iff_count_le_one.mpr fun t => (h t).trans (List.nodup_iff_count_le_one.mp hxs t)

/-- The tags counted with one arbor and the other. -/
theorem Coiling.count_places (v : Coiling) (j : ArborId) (t : Nat) :
    v.places.count t = v.tags.count t + (seenTag (v.arbor j)).count t + (seenTag (v.arbor j.other)).count t +
      (v.outbound.filterMap id).count t := by
  unfold Coiling.places
  rw [List.count_append, List.count_append, List.count_append]
  cases j
  · rw [show ArborId.other .a = .b from rfl]; omega
  · rw [show ArborId.other .b = .a from rfl]; omega

/-- One arbor seen otherwise: with the same tag or none, and in a phase that the other one leaves it. -/
theorem OrderKept.put {q : Prop} {v : Coiling} {j : ArborId} {x : Seen} {cut : Bool}
    (htag : seenTag x = seenTag (v.arbor j) ∨ seenTag x = [])
    (hrec : q → v.Shares → seenIn ArborPhase.receives x = true → seenIn ArborPhase.receives (v.arbor j.other) = false)
    (hpack : q → v.Shares → seenIn phasePacks x = true → seenIn phasePacks (v.arbor j.other) = false)
    (hcut : v.Shares → seenIn phaseCuts x = true ∨ seenIn phaseCuts (v.arbor j.other) = true → cut = true) :
    OrderKept q v { v.put j x with cut := cut } := by
  refine ⟨id, nodup_of_count fun t => ?_, fun hq hv => ?_⟩
  · rw [Coiling.count_places _ j, Coiling.count_places _ j]
    simp only [Coiling.put_self, Coiling.put_other, Coiling.put_tags, Coiling.put_outbound]
    rcases htag with h | h <;> rw [h]
    simp
  · refine ⟨(forall_other_iff (fun k => seenIn ArborPhase.receives ((v.put j x).arbor k)) j).mpr ?_,
      (forall_other_iff (fun k => seenIn phasePacks ((v.put j x).arbor k)) j).mpr ?_, fun k hk => hcut hv ?_⟩
    · simpa using hrec hq hv
    · simpa using hpack hq hv
    · rcases arbor_cases j k with rfl | rfl
      · exact .inl (by simpa using hk)
      · exact .inr (by simpa using hk)

/-- An arbor goes to FREE. -/
theorem OrderKept.free {q : Prop} (v : Coiling) (j : ArborId) : OrderKept q v (v.put j none) :=
  .put (.inr rfl) (fun _ _ => nofun) (fun _ _ => nofun) fun hv h => h.elim nofun (hv.2.2 j.other)

/-- The coil of an arbor takes the head of the free tags. -/
theorem OrderKept.takeTag {q : Prop} {v : Coiling} {tag : Nat} {rest : List Nat} (j : ArborId) (h : v.tags = tag :: rest) :
    OrderKept q v { v.put j ((v.arbor j).map fun y => (y.1, some tag)) with tags := rest } := by
  have phase (f : ArborPhase → Bool) :
      seenIn f ((v.arbor j).map fun y => (y.1, some tag)) = seenIn f (v.arbor j) := by cases v.arbor j <;> rfl
  refine ⟨fun ⟨hlen, hrange, hout⟩ => ⟨?_, fun t ht => hrange t ?_, hout⟩, nodup_of_count fun t => ?_, fun hq hv => ?_⟩
  · rw [h] at hlen; exact (Nat.le_succ _).trans hlen
  · rw [h]; exact List.mem_cons_of_mem _ ht
  · rw [Coiling.count_places _ j, Coiling.count_places _ j, h]
    simp only [Coiling.put_self, Coiling.put_other, Coiling.put_outbound]
    cases v.arbor j with
    | none => simp [seenTag, List.count_cons]
    | some y => simp [seenTag, List.count_cons]
  · refine ⟨(forall_other_iff (fun k => seenIn ArborPhase.receives ((v.put j _).arbor k)) j).mpr ?_,
      (forall_other_iff (fun k => seenIn phasePacks ((v.put j _).arbor k)) j).mpr ?_, fun k hk => ?_⟩
    · simpa [phase] using hv.1 j
    · simpa [phase] using hv.2.1 j
    · rcases arbor_cases j k with rfl | rfl
      · exact hv.2.2 k (by simpa [phase] using hk)
      · exact hv.2.2 j.other (by simpa using hk)

/-- New tags, apart from each other and from those that stand, join the free tags (R151). -/
theorem OrderKept.load {q : Prop} {v : Coiling} {new : List Nat} (hroom : v.tags.length + new.length ≤ 32)
    (hrange : ∀ t ∈ new, 1 ≤ t ∧ t ≤ 16777215) (hnew : new.Nodup) (hapart : ∀ t ∈ new, t ∉ v.places) :
    OrderKept q v { v with tags := v.tags ++ new } := by
  refine ⟨fun ⟨_, hold, hout⟩ => ⟨?_, fun t ht => ?_, hout⟩, fun hv => ?_, fun _ hv => hv⟩
  · rw [List.length_append]; exact hroom
  · exact (List.mem_append.mp ht).elim (hold t) (hrange t)
  · have perm : ({ v with tags := v.tags ++ new } : Coiling).places.Perm (new ++ v.places) := by
      unfold Coiling.places
      rw [List.append_assoc]
      exact List.perm_append_comm_assoc ..
    exact perm.nodup_iff.mpr (List.nodup_append'.mpr ⟨hnew, hv, hapart⟩)

/-- The coil of an arbor joins the outbound coils, some of which may have gone, and its arbor is FREE (R152, R153). -/
theorem OrderKept.post {q : Prop} {v : Coiling} {y : ArborPhase × Option Nat} {out : List (Option Nat)} {j : ArborId}
    (hj : v.arbor j = some y) (hout : out.Sublist v.outbound) (hroom : v.Listed → out.length < 12) :
    OrderKept q v { v.put j none with outbound := out ++ [y.2] } := by
  refine ⟨fun hv => ⟨hv.1, hv.2.1, ?_⟩, nodup_of_count fun t => ?_, (OrderKept.free v j).shares⟩
  · rw [List.length_append]; exact hroom hv
  · have fewer := (hout.filterMap id).count_le t
    have posted : (out ++ [y.2]).filterMap id = out.filterMap id ++ seenTag (v.arbor j) := by
      rw [hj, List.filterMap_append]
      unfold seenTag
      cases h : y.2 <;> simp [h]
    rw [Coiling.count_places _ j, Coiling.count_places _ j, posted, List.count_append]
    simp only [Coiling.put_self, Coiling.put_other, Coiling.put_tags]
    rw [show seenTag none = [] from rfl, List.count_nil]
    omega

/-- The first outbound coil goes (R153). -/
theorem OrderKept.drop {q : Prop} {v : Coiling} {out : List (Option Nat)} (hout : out.Sublist v.outbound) :
    OrderKept q v { v with outbound := out } := by
  refine ⟨fun hv => ⟨hv.1, hv.2.1, hout.length_le.trans hv.2.2⟩, nodup_of_count fun t => ?_, fun _ hv => hv⟩
  have fewer := (hout.filterMap id).count_le t
  rw [Coiling.count_places _ .a, Coiling.count_places _ .a]
  exact Nat.add_le_add_left fewer _

/-- With both arbors FREE the stations do not matter. -/
theorem OrderKept.idle {q : Prop} {v : Coiling} (h : ∀ j, v.arbor j = none) (cut : Bool) :
    OrderKept q v { v with cut := cut } := by
  have idle (f : ArborPhase → Bool) (j : ArborId) : ¬seenIn f (v.arbor j) = true := by rw [h j]; nofun
  exact ⟨id, id, fun _ _ => ⟨fun j hj => absurd hj (idle _ j), fun j hj => absurd hj (idle _ j),
    fun j hj => absurd hj (idle _ j)⟩⟩

end Sys2Proof.Laws
end

section
/-! What leaves the view of the coiling unit as it is. -/

namespace Sys2Proof.Laws

open Sys2Proof.Machine Sys2Proof.Safety

/-! ## CUT_STOP on C0 through causes and moves -/

/-- Where the coiling unit stands, CUT_STOP alone may differ. -/
theorem coiling_of_coiler {s t : State} (h : t.coiler = s.coiler) :
    coiling t = { coiling s with cut := t.has staC0 .cutStop } := by
  unfold coiling coilingOf
  rw [h]
  rfl

/-- A move that leaves CUT_STOP on C0 as it was. -/
theorem MoveFrame.coiling {s t : State} (h : MoveFrame s t) (hc : t.has staC0 .cutStop = s.has staC0 .cutStop) :
    coiling t = coiling s := by
  rw [coiling_of_coiler h.coiler, hc]
  rfl

theorem NoticeFrame.coiling {s t : State} (h : NoticeFrame s t) : coiling t = coiling s :=
  (MoveFrame.ofNotice h).coiling (by unfold State.has; rw [h.station])

/-- The raise of another cause, on whatever station, leaves CUT_STOP as it was. -/
theorem raiseOne_cutStop (i : Sta) {c : Cause} (s : State) (h : c ≠ .cutStop) :
    (raiseOne i c s).has staC0 .cutStop = s.has staC0 .cutStop := by
  by_cases hr : c.admissible (kindOf i) = false ∨ s.has i c = true
  · unfold raiseOne; rw [if_pos hr]
  · simp only [not_or, Bool.not_eq_false, Bool.not_eq_true] at hr
    unfold State.has
    by_cases e : i = staC0
    · subst e
      rw [raiseOne_station _ c s hr.1 hr.2, hasCause_add, decide_eq_false h, Bool.or_false]
    · rw [raiseOne_station_ne _ _ _ _ (Ne.symm e)]

theorem raiseCause_cutStop (i : Sta) {c : Cause} (s : State) (h : c ≠ .cutStop) :
    (raiseCause i c s).has staC0 .cutStop = s.has staC0 .cutStop := by
  unfold raiseCause coilerHalted
  split
  · rw [raiseOne_cutStop _ _ (by decide), raiseOne_cutStop _ _ h]
  · exact raiseOne_cutStop _ _ h

theorem dropCause_cutStop (i : Sta) {c : Cause} (s : State) (h : c ≠ .cutStop) :
    (dropCause i c s).has staC0 .cutStop = s.has staC0 .cutStop := by
  rw [dropCause_has, decide_eq_false h, Bool.and_false, Bool.not_false, Bool.and_true]

theorem changeState_has (i j : Sta) (st : RunState) (d : BitVec 16) (c : Cause) (s : State) :
    (changeState i st d s).has j c = s.has j c := by
  unfold State.has
  by_cases e : j = i
  · rw [e, changeState_station]
  · rw [changeState_station_ne _ _ _ _ _ e]

theorem settle_cutStop (i : Sta) (s : State) : (settle i s).has staC0 .cutStop = s.has staC0 .cutStop := by
  unfold settle coilerReleased
  split
  · rw [settleOne_has, dropCause_cutStop _ _ (by decide), settleOne_has]
  · exact settleOne_has ..

/-! ## Shared operations -/

section
variable (s : State)

@[simp] theorem setTwist_coiling (t : Twi) (w : Twist) : coiling (s.setTwist t w) = coiling s := rfl
@[simp] theorem setChannel_coiling (c : Chan) (r : Channel) : coiling (s.setChannel c r) = coiling s := rfl
@[simp] theorem setPort_coiling (p : Port) (u : PortUnit) : coiling (s.setPort p u) = coiling s := rfl
@[simp] theorem setQueue_coiling (p : Port) (q : List Entry) : coiling (s.setQueue p q) = coiling s := rfl
@[simp] theorem setLoom_coiling (l : Loom) (q : LoomPos) : coiling (s.setLoom l q) = coiling s := rfl
@[simp] theorem setSegment_coiling (i : SegIx) (r : Segment) : coiling (s.setSegment i r) = coiling s := rfl
@[simp] theorem setLot_coiling (k : Slot) (o : Option Lot) : coiling (s.setLot k o) = coiling s := rfl
@[simp] theorem setBobbins_coiling (bs : List Bobbin) : coiling (s.setBobbins bs) = coiling s := rfl
@[simp] theorem setMeter_coiling (m : Meter) : coiling (s.setMeter m) = coiling s := rfl
@[simp] theorem setSettings_coiling (c : Settings) : coiling (s.setSettings c) = coiling s := rfl
@[simp] theorem advanceUs_coiling (us : Nat) : coiling (s.advanceUs us) = coiling s := rfl
@[simp] theorem advanceMs_coiling (ms : Nat) : coiling (s.advanceMs ms) = coiling s := rfl
@[simp] theorem putBobbin_coiling (b : Bobbin) : coiling (putBobbin b s) = coiling s := rfl
@[simp] theorem discardSlip_coiling : coiling (discardSlip s) = coiling s := rfl
@[simp] theorem modLoom_coiling (l : Loom) (f : LoomPos → LoomPos) : coiling (modLoom l f s) = coiling s := rfl
@[simp] theorem modLay_coiling (t : Twi) (f : Lay → Lay) : coiling (modLay t f s) = coiling s := rfl
@[simp] theorem addUnassigned_coiling (d : Nat) : coiling (addUnassigned d s) = coiling s := by
  refine Coiling.ext (funext fun j => ?_) rfl rfl rfl
  cases j <;> rfl

/-- The mark pulse, the tallies of unassigned rope and of the wheel do not count. -/
@[simp] theorem setCoiler_coiling (u w : Len) (m : Option Nat) :
    coiling (s.setCoiler { s.coiler with unassigned := u, markMs := m, wheelTally := w }) = coiling s :=
  Coiling.ext (funext fun j => by cases j <;> rfl) rfl rfl rfl

@[simp] theorem ite_coiling (c : Prop) [Decidable c] (a b : State) :
    coiling (if c then a else b) = if c then coiling a else coiling b := apply_ite ..

theorem setStation_coiling (i : Sta) (r : Station) (h : r.causes = (s.station i).causes) :
    coiling (s.setStation i r) = coiling s := by
  refine Coiling.ext rfl rfl rfl ?_
  rw [coiling_cut, coiling_cut]
  unfold State.has
  rw [State.setStation_station]
  split
  · next e => rw [h, e]
  · rfl

@[simp] theorem raise_coiling (cls : NoticeClass) (sub : Subject) (d : BitVec 16) : coiling (raise cls sub d s) = coiling s :=
  (raise_frame ..).coiling
@[simp] theorem warn_coiling (w : Warning) (cls : NoticeClass) (sub : Subject) (d : BitVec 16) :
    coiling (warn w cls sub d s) = coiling s := (warn_frame ..).coiling
@[simp] theorem warnLow_coiling (n : Nat) : coiling (warnLow n s) = coiling s := warn_coiling ..
@[simp] theorem offer_coiling (p : Port) (cls : NoticeClass) (sub : Subject) (d : BitVec 16) :
    coiling (offer p cls sub d s) = coiling s := (offer_frame ..).coiling
@[simp] theorem changeState_coiling (i : Sta) (st : RunState) (d : BitVec 16) : coiling (changeState i st d s) = coiling s :=
  (changeState_move ..).coiling (changeState_has ..)
@[simp] theorem moveTo_coiling (i : Sta) (st : RunState) : coiling (moveTo i st s) = coiling s := changeState_coiling ..
@[simp] theorem enterRunDown_coiling (t : Twi) : coiling (enterRunDown t s) = coiling s := moveTo_coiling ..
@[simp] theorem haltAtOnce_coiling (t : Twi) : coiling (haltAtOnce t s) = coiling s := by simp [haltAtOnce]

@[simp] theorem raiseCause_coiling (i : Sta) {c : Cause} (h : c ≠ .cutStop) : coiling (raiseCause i c s) = coiling s :=
  (raiseCause_move ..).coiling (raiseCause_cutStop i s h)
@[simp] theorem dropCause_coiling (i : Sta) {c : Cause} (h : c ≠ .cutStop) : coiling (dropCause i c s) = coiling s :=
  (dropCause_move ..).coiling (dropCause_cutStop i s h)
@[simp] theorem settle_coiling (i : Sta) : coiling (settle i s) = coiling s := (settle_move ..).coiling (settle_cutStop i s)
@[simp] theorem removeCause_coiling (i : Sta) {c : Cause} (h : c ≠ .cutStop) : coiling (removeCause i c s) = coiling s := by
  simp [removeCause, h]

/-- A fold of steps that each leave the view leaves it. -/
theorem foldl_coiling {α : Type} {f : State → α → State} (h : ∀ s a, coiling (f s a) = coiling s) (xs : List α) :
    coiling (xs.foldl f s) = coiling s :=
  foldl_frame (F := fun s t => coiling t = coiling s) (fun _ => rfl) (fun h k => k.trans h) f h xs s

@[simp] theorem raiseOnAll_coiling (set : BitSet 8) {c : Cause} (h : c ≠ .cutStop) :
    coiling (raiseOnAll set c s) = coiling s := foldl_coiling s (fun s i => by simp [h]) _
@[simp] theorem removeFromAll_coiling (set : BitSet 8) {c : Cause} (h : c ≠ .cutStop) :
    coiling (removeFromAll set c s) = coiling s := foldl_coiling s (fun s i => by simp [h]) _

@[simp] theorem modLot_coiling (n : Nat) (f : Lot → Lot) : coiling (modLot n f s) = coiling s := by
  unfold modLot
  split <;> rfl

@[simp] theorem addStart_coiling (n : Nat) : coiling (addStart n s) = coiling s := modLot_coiling ..
@[simp] theorem withdrawStart_coiling (n : Nat) : coiling (withdrawStart n s) = coiling s := modLot_coiling ..
@[simp] theorem addProduced_coiling (n mm : Nat) : coiling (addProduced n mm s) = coiling s := modLot_coiling ..
@[simp] theorem moveLot_coiling (n : Nat) (st : LotState) : coiling (moveLot n st s) = coiling s := by simp [moveLot]

@[simp] theorem checkComplete_coiling (n : Nat) : coiling (checkComplete n s) = coiling s := by
  unfold checkComplete
  split
  · simp
  · rfl

@[simp] theorem countDone_coiling (n : Nat) : coiling (countDone n s) = coiling s := by simp [countDone]

theorem setArbor_coiling (j : ArborId) (r : Arbor) : coiling (s.setArbor j r) = (coiling s).put j (seen r) := by
  refine Coiling.ext (funext fun k => ?_) ?_ ?_ rfl
  · rw [coiling_arbor]
    rcases arbor_cases j k with rfl | rfl
    · rw [Coiling.put_self, arbor_setArbor]
    · rw [Coiling.put_other, arbor_setArbor_other]; rfl
  · cases j <;> rfl
  · cases j <;> rfl

/-- A change of an arbor's coil that keeps its tag. -/
theorem modCoil_coiling (j : ArborId) {f : Coil → Coil} (h : ∀ c, (f c).tag = c.tag) :
    coiling (modCoil j f s) = coiling s := by
  unfold modCoil
  split
  · next ph c ha =>
    have same : seen (.busy ph (f c)) = (coiling s).arbor j := by rw [coiling_arbor, ha, seen_busy, seen_busy, h]
    rw [setArbor_coiling, same, Coiling.put_arbor]
  · rfl

/-! ## Bobbins and draw -/

theorem countFilled_coiling (o : Option Nat) (mm : Nat) :
    coiling (match o with | some n => countDone n (addProduced n mm s) | none => s) = coiling s := by
  cases o <;> simp

@[simp] theorem endFill_coiling (i : Strander) : coiling (endFill i s) = coiling s := by
  unfold endFill
  split
  · split
    · split
      · exact countFilled_coiling ..
      · rfl
    · rfl
  · rfl

@[simp] theorem windBobbin_coiling (i : Strander) (d : Nat) : coiling (windBobbin i d s) = coiling s := by
  unfold windBobbin
  split
  · simp
  · rfl

@[simp] theorem charge_coiling (i : Sta) (pl : Place) (d : Nat) : coiling (charge i pl d s).1 = coiling s := by
  unfold charge
  split
  · split
    · simp
    · rfl
  · rfl

@[simp] theorem coilShortfall_coiling (d : Nat) : coiling (coilShortfall d s) = coiling s := by
  unfold coilShortfall
  split
  · exact modCoil_coiling _ _ fun _ => rfl
  · rfl

theorem drawPositions_coiling (d t : Nat) (ps : List Pos) :
    ∀ acc : State × Nat, coiling (ps.foldl (drawPosition d t) acc).1 = coiling acc.1 := by
  induction ps with
  | nil => exact fun _ => rfl
  | cons i ps ih => exact fun acc => (ih _).trans (charge_coiling ..)

@[simp] theorem takeUpDraw_coiling (d : Nat) : coiling (takeUpDraw d s) = coiling s := by
  unfold takeUpDraw
  split
  · exact (coilShortfall_coiling ..).trans (drawPositions_coiling ..)
  · rfl

@[simp] theorem chargeFeed_coiling (l : Loom) (f : Feed) (mm : Nat) : coiling (chargeFeed l f mm s) = coiling s := by
  simp [chargeFeed]
@[simp] theorem chargeTwine_coiling (l : Loom) (c : NetLot) : coiling (chargeTwine l c s) = coiling s := by simp [chargeTwine]

@[simp] theorem issueBobbin_coiling (i : Strander) (b : Bobbin) (l : Lot) (c : StrandLot) :
    coiling (issueBobbin i b l c s) = coiling s := by simp [issueBobbin]

@[simp] theorem doffBobbin_coiling (b : Bobbin) : coiling (doffBobbin b s) = coiling s := by
  unfold doffBobbin
  split
  · exact countFilled_coiling ..
  · cases b.lot <;> simp

theorem addBobbin_tag (c : Coil) (n : Nat) : (c.addBobbin n).tag = c.tag := by
  unfold Coil.addBobbin
  split
  · rfl
  · split <;> rfl

@[simp] theorem listOnCoil_coiling (i : Sta) (n : Nat) : coiling (listOnCoil i n s) = coiling s := by
  unfold listOnCoil
  split
  · split
    · exact modCoil_coiling _ _ fun c => addBobbin_tag c n
    · rfl
  · rfl

@[simp] theorem restoreFeed_coiling (i : Sta) : coiling (restoreFeed i s) = coiling s := by simp [restoreFeed]

@[simp] theorem mountBobbin_coiling (i : Sta) (pl : Place) (b : Bobbin) : coiling (mountBobbin i pl b s) = coiling s := by
  unfold mountBobbin
  dsimp only
  cases pl <;> simp
  rfl

/-! ## Metering, lay and twist -/

@[simp] theorem closeSlip_coiling : coiling (closeSlip s) = coiling s := by
  unfold closeSlip
  extract_lets slip m s1
  have h1 : coiling s1 = coiling s := rfl
  split
  · next j c _ _ =>
    have mod (u : State) (f : Coil → Coil) (h : ∀ c, (f c).tag = c.tag) : coiling (modCoil j f u) = coiling u :=
      modCoil_coiling _ _ h
    simp [mod, h1]
  · exact h1

@[simp] theorem takeStall_coiling : coiling (takeStall s) = coiling s := by
  unfold takeStall
  dsimp only
  split
  · simp [modCoil_coiling]
  · simp

@[simp] theorem takeRecovery_coiling : coiling (takeRecovery s) = coiling s := warn_coiling ..

@[simp] theorem supplyLayStat_coiling (t : Twi) (f : Int) (d : Bool) : coiling (supplyLayStat t f d s) = coiling s := by
  unfold supplyLayStat
  split
  · split
    · exact modCoil_coiling _ _ fun _ => rfl
    · rfl
  · rfl

@[simp] theorem closeRunUp_coiling (t : Twi) (e : Int) (tol : Nat) : coiling (closeRunUp t e tol s) = coiling s := by
  simp [closeRunUp]
@[simp] theorem closeSteady_coiling (t : Twi) (e f : Int) (tol : Nat) : coiling (closeSteady t e f tol s) = coiling s := by
  simp [closeSteady]
@[simp] theorem reopen_coiling (t : Twi) : coiling (reopen t s) = coiling s := by simp [reopen]

@[simp] theorem closeWindow_coiling (t : Twi) : coiling (closeWindow t s) = coiling s := by
  unfold closeWindow
  split
  · simp
  · rfl

@[simp] theorem flyEdge_coiling (t : Twi) : coiling (flyEdge t s) = coiling s := by simp [flyEdge, layFly, flyStill]
@[simp] theorem expireWindow_coiling (t : Twi) : coiling (expireWindow t s) = coiling s := by simp [expireWindow]
@[simp] theorem longRunUp_coiling (t : Twi) : coiling (longRunUp t s) = coiling s := by simp [longRunUp]
@[simp] theorem longRunDown_coiling (t : Twi) : coiling (longRunDown t s) = coiling s := by simp [longRunDown]
@[simp] theorem startTwist_coiling (t : Twi) : coiling (startTwist t s) = coiling s := by simp [startTwist]
@[simp] theorem accumulate_coiling (t : Twi) (d : Nat) : coiling (accumulate t d s) = coiling s := by simp [accumulate]
@[simp] theorem layCap_coiling (t : Twi) (d : Nat) : coiling (layCap t d s) = coiling s := by simp [layCap]

@[simp] theorem endFillOf_coiling (t : Twi) : coiling (endFillOf t s) = coiling s := by
  unfold endFillOf
  split
  · exact endFill_coiling ..
  · rfl

@[simp] theorem becomeStill_coiling (t : Twi) : coiling (becomeStill t s) = coiling s := by
  unfold becomeStill
  dsimp only
  split <;> simp

/-! ## Looms -/

@[simp] theorem openRow_coiling (l : Loom) : coiling (openRow l s) = coiling s := rfl
@[simp] theorem startPanel_coiling (l : Loom) (c : NetLot) : coiling (startPanel l c s) = coiling s := by simp [startPanel]
@[simp] theorem finishPanel_coiling (l : Loom) : coiling (finishPanel l s) = coiling s := by simp [finishPanel]
@[simp] theorem rejectPanel_coiling (l : Loom) : coiling (rejectPanel l s) = coiling s := by simp [rejectPanel]

@[simp] theorem attemptPanel_coiling (l : Loom) : coiling (attemptPanel l s).1 = coiling s := by
  unfold attemptPanel
  dsimp only
  split
  · split <;> simp
  · rfl

@[simp] theorem stopOrNext_coiling (l : Loom) : coiling (stopOrNext l s).1 = coiling s := by
  unfold stopOrNext
  dsimp only
  split <;> rfl

@[simp] theorem compareKnots_coiling (l : Loom) (knots : BitVec 256) : coiling (compareKnots l knots s) = coiling s := by
  unfold compareKnots
  dsimp only
  split <;> simp

@[simp] theorem taper_coiling (l : Loom) : coiling (taper l s) = coiling s := by simp [taper]

/-! ## Lots, stations, settings -/

@[simp] theorem joinLot_coiling (i : Sta) (n : Nat) : coiling (joinLot i n s) = coiling s :=
  (modLot_coiling ..).trans (setStation_coiling s i _ rfl)

@[simp] theorem zeroAcc_coiling (i : Sta) : coiling (zeroAcc i s) = coiling s := by
  unfold zeroAcc
  split
  · rfl
  · rw [ite_coiling]
    exact (ite_congr rfl (fun _ => setCoiler_coiling ..) fun _ => rfl).trans (ite_self _)

@[simp] theorem attachPair_coiling : coiling (attachPair s) = coiling s := setCoiler_coiling ..
@[simp] theorem attachLoom_coiling (l : Loom) (c : NetLot) : coiling (attachLoom l c s) = coiling s := rfl

@[simp] theorem feedOutAtAttach_coiling (i : Sta) : coiling (feedOutAtAttach i s) = coiling s := by
  simp [feedOutAtAttach, foldl_coiling]

@[simp] theorem attachLot_coiling (i : Sta) (l : Lot) : coiling (attachLot i l s) = coiling s := by
  unfold attachLot
  dsimp only
  split <;> simp

@[simp] theorem lotLosesStation_coiling (n : Nat) (i : Sta) : coiling (lotLosesStation n i s) = coiling s := modLot_coiling ..

@[simp] theorem readyIfLeft_coiling (n : Nat) : coiling (readyIfLeft n s) = coiling s := by
  unfold readyIfLeft
  split
  · simp
  · rfl

@[simp] theorem detachLoom_coiling (l : Loom) : coiling (detachLoom l s) = coiling s := by simp [detachLoom]

theorem clearable_ne_cutStop {i : Sta} {c : Cause} (h : c ∈ clearable i s) : c ≠ .cutStop := by
  rintro rfl
  revert h
  unfold clearable
  split <;> decide

/-- FAULT_CLEAR leaves CUT_STOP, a conditional cause (R10). -/
@[simp] theorem clearFaults_coiling (i : Sta) : coiling (clearFaults i s) = coiling s := by
  have drops (cs : List Cause) (h : ∀ c ∈ cs, c ≠ .cutStop) :
      ∀ u : State, coiling (cs.foldl (fun u c => dropCause i c u) u) = coiling u := by
    induction cs with
    | nil => exact fun _ => rfl
    | cons c cs ih =>
      intro u
      rw [List.foldl_cons, ih (fun d hd => h d (List.mem_cons_of_mem _ hd)), dropCause_coiling _ _ (h c List.mem_cons_self)]
  unfold clearFaults
  dsimp only
  split
  · rw [settle_coiling, drops _ fun c => clearable_ne_cutStop s]
  · rfl

@[simp] theorem fallSilent_coiling (p : Port) : coiling (fallSilent p s) = coiling s := by simp [fallSilent, foldl_coiling]
@[simp] theorem validArrival_coiling (p : Port) : coiling (validArrival p s) = coiling s := by simp [validArrival]

@[simp] theorem settingsTaken_coiling (wrote : Nat → Bool) : coiling (settingsTaken wrote s) = coiling s := by
  simp [settingsTaken, foldl_coiling]

@[simp] theorem discardPending_coiling (old : Settings) : coiling (discardPending old s) = coiling s := by
  simp [discardPending, foldl_coiling]

theorem addCause_coiling (i : Sta) {c : Cause} (h : c ≠ .cutStop) : coiling (addCause i c s) = coiling s :=
  (addCause_move ..).coiling (by
    unfold addCause State.has
    rw [State.setStation_station]
    split
    · next e => rw [hasCause_add, decide_eq_false h, Bool.or_false, e]
    · rfl)

theorem stopStation_coiling (i : Sta) {c : Cause} (h : c ≠ .cutStop) : coiling (stopStation c s i) = coiling s := by
  unfold stopStation
  split
  · split <;> simp [addCause_coiling, h]
  · rfl

theorem stopAll_coiling {c : Cause} (h : c ≠ .cutStop) : coiling (stopAll c s) = coiling s := by
  unfold stopAll
  rw [foldl_coiling _ fun s i => endFill_coiling s i]
  exact foldl_coiling s (fun s i => stopStation_coiling s i h) _

end

end Sys2Proof.Laws
end

section
/-! What keeps the coiling unit in order, operation by operation (R127, R140 to R154). -/

namespace Sys2Proof.Laws

open Sys2Proof.Machine Sys2Proof.Safety

/-! ## Coils that start, grow and are cut -/

theorem receives_of_receiving {s : State} {j : ArborId} (h : s.receiving = some j) : (s.arbor j).receives = true := by
  unfold State.receiving at h
  split at h
  · cases h; assumption
  · split at h
    · cases h; assumption
    · cases h

theorem winds_of_windingArbor {s : State} {j : ArborId} (h : s.windingArbor = some j) : (s.arbor j).winds = true := by
  unfold State.windingArbor at h
  split at h
  · cases h; assumption
  · split at h
    · cases h; assumption
    · cases h

theorem windingArbor_eq_none {s : State} (h : s.windingArbor = none) (j : ArborId) : (s.arbor j).winds = false := by
  unfold State.windingArbor at h
  split at h
  · cases h
  · next ha =>
    split at h
    · cases h
    · next hb => cases j <;> exact Bool.not_eq_true _ ▸ ‹_›

theorem receives_of_winds {ph : ArborPhase} (h : ph.winds = true) : ph.receives = true := by
  revert h
  cases ph <;> decide

/-- A receiving arbor goes to another receiving phase, with CUT_STOP on C0 if that is CUTTING. -/
theorem OrderKept.receiving {q : Prop} {v : Coiling} {j : ArborId} {ph ph' : ArborPhase} {tag : Option Nat} {cut : Bool}
    (hj : v.arbor j = some (ph, tag)) (hph : ph.receives = true) (hph' : ph'.receives = true)
    (hcut : phaseCuts ph' = true ∨ v.cut = true → cut = true) :
    OrderKept q v { v.put j (some (ph', tag)) with cut := cut } := by
  have receives : seenIn ArborPhase.receives (v.arbor j) = true := by rw [hj]; exact hph
  refine .put (.inl (by rw [hj]; rfl)) (fun _ hv _ => hv.1 j receives) (fun _ _ h => ?_) fun hv h => hcut ?_
  · cases ph' <;> cases hph' <;> cases h
  · exact h.imp id (hv.2.2 j.other)

theorem coilSeeds_tag (ids : List Nat) : ∀ c : Coil, (ids.foldl Coil.addBobbin c).tag = c.tag := by
  induction ids with
  | nil => exact fun _ => rfl
  | cons n ids ih => exact fun c => (ih _).trans (addBobbin_tag c n)

/-- A started coil winds, without a tag (R139, R140). -/
theorem startCoil_coiling (j : ArborId) (n : Nat) (s : State) :
    coiling (startCoil j n s) = (coiling s).put j (some (.winding, none)) := by
  unfold startCoil
  extract_lets s1 seq c c' s2
  have tag : c'.tag = none := by
    unfold c'
    split
    · exact coilSeeds_tag ..
    · rfl
  have h2 : coiling s2 = (coiling s).put j (some (.winding, none)) := by
    unfold s2
    rw [setArbor_coiling, addStart_coiling, seen_busy, tag]
  rw [ite_coiling]
  exact (ite_congr rfl (fun _ => h2) fun _ => h2).trans (ite_self _)

theorem cutCauses_coiling (other : Arbor) (s : State) : coiling (cutCauses other s) = { coiling s with cut := true } := by
  have cut : (cutCauses other s).has staC0 .cutStop = true := by
    unfold State.has
    rw [cutCauses_causes]
    simp [hasCause, BitSet.has, Cause.idx]
  rw [coiling_of_coiler (cutCauses_move other s).coiler, cut]

/-- An arbor at its cut point is CUTTING, with CUT_STOP on C0 (R143). -/
theorem cutPoint_coiling {j : ArborId} {ph : ArborPhase} {c : Coil} {s : State} (h : s.arbor j = .busy ph c) :
    coiling (cutPoint j s) = { (coiling s).put j (some (.cutting, c.tag)) with cut := true } := by
  rw [cutPoint_eq h, cutCauses_coiling, setArbor_coiling]
  rfl

theorem coilAt_coiling (j : ArborId) (ph : ArborPhase) (c : Coil) (mark : Bool) (s : State) :
    coiling (coilAt j ph c mark s) = (coiling s).put j (some (ph, c.tag)) := by
  unfold coilAt
  rw [setArbor_coiling]
  exact congrArg (fun v => Coiling.put v j _) (setCoiler_coiling ..)

/-- What a coil increment can do with the receiving arbor: its coil grows there, and the arbor keeps its phase, winds on, or is
cut (R141 to R143). -/
theorem coilIncrement_cases (d : Nat) {s : State} {j : ArborId} {ph : ArborPhase} {c : Coil} (hr : s.receiving = some j)
    (ha : s.arbor j = .busy ph c) :
    ∃ (ph' : ArborPhase) (mark : Bool),
      coilIncrement d s = coilAt j ph' { c with length := c.length.add d } mark s ∧ (ph' = ph ∨ ph'.winds = true) ∨
        ph' = .cutting ∧
          coilIncrement d s = cutCauses (s.arbor j.other) (coilAt j ph' { c with length := c.length.add d } mark s) := by
  by_cases hw : ph.winds = true ∧ ∃ r, s.ropeOf c.lot = some r
  · obtain ⟨hw, r, hl⟩ := hw
    rw [coilIncrement_winds hr ha hw hl rfl rfl, cutPoint_coilAt]
    split
    · split
      · exact ⟨.cutting, _, .inr ⟨rfl, rfl⟩⟩
      · exact ⟨.slowing, _, .inl ⟨rfl, .inr rfl⟩⟩
    · exact ⟨.winding, _, .inl ⟨rfl, .inr rfl⟩⟩
  · have alone : ph.winds = false ∨ s.ropeOf c.lot = none := by
      rw [not_and_or, Bool.not_eq_true] at hw
      exact hw.imp_right fun h => Option.eq_none_iff_forall_ne_some.mpr fun r hl => h ⟨r, hl⟩
    exact ⟨ph, false, .inl ⟨coilIncrement_alone hr ha alone, .inl rfl⟩⟩

theorem receives_of_busy {s : State} {j : ArborId} {ph : ArborPhase} {c : Coil} (hr : s.receiving = some j)
    (ha : s.arbor j = .busy ph c) : ph.receives = true := by
  have h := receives_of_receiving hr
  rwa [ha] at h

/-- A coil increment leaves the receiving arbor receiving. -/
theorem coilIncrement_order {q : Prop} (d : Nat) (s : State) : OrderKept q (coiling s) (coiling (coilIncrement d s)) := by
  cases hr : s.receiving with
  | none => exact .of_eq (by unfold coilIncrement; rw [hr])
  | some j =>
    cases ha : s.arbor j with
    | free => exact .of_eq (by unfold coilIncrement; rw [hr]; simp only [ha])
    | busy ph c =>
      have hj : (coiling s).arbor j = some (ph, c.tag) := by rw [coiling_arbor, ha, seen_busy]
      have hph := receives_of_busy hr ha
      obtain ⟨ph', mark, ⟨e, rfl | hw⟩ | ⟨rfl, e⟩⟩ := coilIncrement_cases d hr ha
      · rw [e, coilAt_coiling, ← hj, Coiling.put_arbor]
        exact .refl _
      · rw [e, coilAt_coiling]
        exact .receiving hj hph (receives_of_winds hw) fun h => h.elim (by cases ph' <;> cases hw <;> nofun) id
      · rw [e, cutCauses_coiling, coilAt_coiling]
        exact .receiving hj hph rfl fun _ => rfl

theorem meterCap_order {q : Prop} (d : Nat) (s : State) : OrderKept q (coiling s) (coiling (meterCap d s)) := by
  unfold meterCap
  split
  · extract_lets s1 dist m s2 s3 m' s4
    have h1 : OrderKept q (coiling s) (coiling s1) := by
      unfold s1
      split
      · rw [ite_coiling]
        split
        · exact .refl _
        · exact coilIncrement_order d s
      · exact .of_eq (by simp)
    have h3 : coiling s3 = coiling s1 := by
      unfold s3
      split
      · exact takeStall_coiling s2
      · rfl
    refine h1.trans (.of_eq ?_)
    split
    · split
      · exact (closeSlip_coiling s4).trans h3
      · exact h3
    · exact h3
  · exact .refl _

theorem meterWheel_order {q : Prop} (d : Nat) (s : State) : OrderKept q (coiling s) (coiling (meterWheel d s)) := by
  by_cases h : s.pairHolds = true
  · have start : coiling (recovered s) = coiling s := (recovered_frame s).coiling
    rw [meterWheel_eq d h, setMeter_coiling, ← start]
    unfold wheelLength
    split
    · rw [ite_coiling]
      split
      · exact coilIncrement_order ..
      · exact .refl _
    · exact .of_eq (addUnassigned_coiling ..)
  · unfold meterWheel
    rw [if_neg h]
    exact .refl _

/-! ## Tags, reports, posting -/

/-- A coil takes the head of the free tags, or none is there to take (R150). -/
theorem takeTag_order {q : Prop} (j : ArborId) (s : State) : OrderKept q (coiling s) (coiling (takeTag j s)) := by
  unfold takeTag
  split
  · next tag rest htags =>
    have taken : coiling (modCoil j (fun c => { c with tag := some tag }) (s.setCoiler { s.coiler with tags := rest })) =
        { (coiling s).put j (((coiling s).arbor j).map fun y => (y.1, some tag)) with tags := rest } := by
      have arbor : (s.setCoiler { s.coiler with tags := rest }).arbor j = s.arbor j := by cases j <;> rfl
      have tagless : coiling (s.setCoiler { s.coiler with tags := rest }) = { coiling s with tags := rest } :=
        Coiling.ext (funext fun k => by cases k <;> rfl) rfl rfl rfl
      unfold modCoil
      rw [arbor, coiling_arbor]
      cases ha : s.arbor j with
      | free =>
        have same : (coiling s).put j none = coiling s := by
          rw [show (none : Seen) = (coiling s).arbor j from (congrArg seen ha).symm, Coiling.put_arbor]
        exact tagless.trans (congrArg (fun v : Coiling => { v with tags := rest }) same.symm)
      | busy ph c => exact (setArbor_coiling ..).trans (congrArg (fun v => Coiling.put v j _) tagless)
    simp only [ite_coiling, warn_coiling, ite_self, taken]
    exact .takeTag j htags
  · exact .refl _

theorem tagOnPacking_order {q : Prop} (j : ArborId) (s : State) : OrderKept q (coiling s) (coiling (tagOnPacking j s)) := by
  unfold tagOnPacking
  split
  · exact .of_eq (raise_coiling ..)
  · exact takeTag_order ..

theorem postCoil_coiling (c : Coil) (s : State) :
    coiling (postCoil c s) = { coiling s with outbound := (coiling s).outbound ++ [c.tag] } := by
  have posted : coiling (s.setCoiler { s.coiler with outbound := s.coiler.outbound ++ [c] }) =
      { coiling s with outbound := (coiling s).outbound ++ [c.tag] } :=
    Coiling.ext (funext fun k => by cases k <;> rfl) rfl List.map_append rfl
  unfold postCoil
  simp [posted]

theorem freeArbor_coiling (j : ArborId) (s : State) : coiling (freeArbor j s) = (coiling s).put j none := by
  have freed : coiling (s.setArbor j .free) = (coiling s).put j none := setArbor_coiling ..
  unfold freeArbor
  simp [freed]

/-- A coil posted from its arbor, which is FREE then (R149, R152). -/
theorem postAndFree_coiling (j : ArborId) (c : Coil) (s : State) :
    coiling (freeArbor j (postCoil c s)) =
      { (coiling s).put j none with outbound := (coiling s).outbound ++ [c.tag] } := by
  rw [freeArbor_coiling, postCoil_coiling]
  rfl

/-- The next coil starts on the other arbor, FREE while this one packs (R147). -/
theorem coilFollows_order {q : Prop} {j : ArborId} {tag : Option Nat} {n : Nat} {s : State}
    (hj : (coiling s).arbor j = some (.packing, tag)) : OrderKept q (coiling s) (coiling (coilFollows j n s)) := by
  unfold coilFollows
  split
  · rw [startCoil_coiling]
    refine .put (cut := (coiling s).cut) (.inr rfl) (fun _ _ _ => ?_) (fun _ _ => nofun) fun hv h => h.elim nofun (hv.2.2 _)
    rw [other_other, hj]
    rfl
  · split
    · exact .of_eq (by simp)
    · exact .refl _

/-- CUT_DONE on an arbor beside a FREE one: it packs, and CUT_STOP leaves C0 (R147). -/
theorem cutReport_order {q : Prop} {j : ArborId} {c : Coil} {s : State} (hj : s.arbor j = .busy .cutting c)
    (ho : s.arbor j.other = .free) : OrderKept q (coiling s) (coiling (cutReport j c s)) := by
  have steps (fixed : Coil) (t u : State) (htag : fixed.tag = c.tag)
      (ht : coiling t = coiling (s.setArbor j (.busy .packing fixed)))
      (hu : u = dropCause staC0 .arborBusy (dropCause staC0 .cutStop t)) :
      OrderKept q (coiling s) (coiling (settle staC0 (tagOnPacking j (coilFollows j c.lot u)))) := by
    have packing : coiling u = { (coiling s).put j (some (.packing, c.tag)) with cut := false } := by
      have drop : coiling (dropCause staC0 .cutStop t) = { coiling t with cut := false } := by
        rw [coiling_of_coiler (dropCause_move ..).coiler, dropCause_has]
        simp
      rw [hu, dropCause_coiling _ _ (by decide), drop, ht, setArbor_coiling, seen_busy, htag]
    have other : (coiling s).arbor j.other = none := by rw [coiling_arbor, ho]; rfl
    have h1 : OrderKept q (coiling s) (coiling u) := by
      rw [packing]
      refine .put (.inl ?_) (fun _ _ => nofun) (fun _ _ _ => by rw [other]; rfl) fun _ h => ?_
      · rw [coiling_arbor, hj]; rfl
      · rw [other] at h; exact h.elim nofun nofun
    have h2 : OrderKept q (coiling u) (coiling (coilFollows j c.lot u)) :=
      coilFollows_order (tag := c.tag) (by rw [packing]; exact Coiling.put_self ..)
    rw [settle_coiling]
    exact h1.trans (h2.trans (tagOnPacking_order ..))
  unfold cutReport
  extract_lets past fixed s1 s2 s3 s4
  exact steps fixed s2 s3 rfl (by simp [s2, s1]) rfl

theorem packReport_order {q : Prop} {j : ArborId} {c : Coil} {s : State} (hj : s.arbor j = .busy .packing c) :
    OrderKept q (coiling s) (coiling (packReport j c s)) := by
  have seen : (coiling s).arbor j = some (.packing, c.tag) := by rw [coiling_arbor, hj, seen_busy]
  unfold packReport
  split
  · next hroom =>
    rw [postAndFree_coiling]
    exact .post seen (List.Sublist.refl _) fun _ => by rw [coiling_outbound, List.length_map]; exact hroom
  · rw [raise_coiling, setArbor_coiling, seen_busy]
    refine .put (cut := (coiling s).cut) (.inl (by rw [seen]; rfl)) (fun _ _ => nofun) (fun _ hv _ => hv.2.1 j ?_)
      fun hv h => h.elim nofun (hv.2.2 _)
    rw [seen]
    rfl

/-- The arbor that winds at the close of its lot is FREE, or CUTTING (R154). -/
theorem closeArbor_order {q : Prop} (n : Nat) (s : State) : OrderKept q (coiling s) (coiling (closeArbor n s)) := by
  unfold closeArbor
  split
  · next j hw =>
    split
    · next ph c ha =>
      have winds : ph.winds = true := by
        have h := winds_of_windingArbor hw
        rwa [ha] at h
      split
      · split
        · rw [withdrawStart_coiling, discardSlip_coiling, setArbor_coiling]
          exact .free _ j
        · have marked : (modCoil j (fun c => { c with remnant := true }) s).arbor j = .busy ph { c with remnant := true } := by
            unfold modCoil
            rw [ha]
            exact arbor_setArbor ..
          have sameTag (c : Coil) : ({ c with remnant := true } : Coil).tag = c.tag := rfl
          rw [cutPoint_coiling marked, modCoil_coiling s j sameTag]
          have hj : (coiling s).arbor j = some (ph, c.tag) := by rw [coiling_arbor, ha, seen_busy]
          exact .receiving hj (receives_of_winds winds) rfl fun _ => rfl
      · exact .refl _
    · exact .refl _
  · exact .refl _

/-! ## The requests of the coiling unit -/

/-- An owner keeps the order where every answer it gives does. -/
theorem order_ite {q : Prop} {c : Prop} [Decidable c] {v : Coiling} {a b : Served} (ha : c → OrderKept q v (coiling a.1))
    (hb : ¬c → OrderKept q v (coiling b.1)) : OrderKept q v (coiling (if c then a else b).1) := by
  split
  · next h => exact ha h
  · next h => exact hb h

/-- The CUT line stands for a CUTTING arbor beside a FREE one (R144). -/
theorem other_free_of_cutLine {s : State} {j : ArborId} {c : Coil} (h : cutLine s = true) (hj : s.arbor j = .busy .cutting c) :
    s.arbor j.other = .free := by
  have busy : (s.arbor j).isFree = false := by rw [hj]; rfl
  unfold cutLine at h
  simp only [Bool.and_eq_true, Bool.or_eq_true] at h
  obtain ⟨-, h⟩ := h
  cases j with
  | a =>
    refine isFree_iff.mp (h.elim And.right fun h => ?_)
    exact absurd h.2 (by rw [show s.coiler.a.isFree = false from busy]; nofun)
  | b =>
    refine isFree_iff.mp (h.elim (fun h => ?_) And.right)
    exact absurd h.2 (by rw [show s.coiler.b.isFree = false from busy]; nofun)

theorem serveCoilerReport_order {q : Prop} (station arbor report : Byte) (s : State) :
    OrderKept q (coiling s) (coiling (serveCoilerReport station arbor report s).1) := by
  have same : OrderKept q (coiling s) (coiling s) := .refl _
  unfold serveCoilerReport
  split
  · refine order_ite (fun _ => same) fun _ => order_ite (fun _ => same) fun _ => order_ite (fun _ => ?_) fun _ => ?_
    · split
      · next c hj => exact order_ite (fun hcut => cutReport_order hj (other_free_of_cutLine hcut hj)) fun _ => same
      · exact same
    · split
      · next c hj => exact order_ite (fun _ => same) fun _ => packReport_order hj
      · exact same
  · exact same

theorem places_coiling (s : State) : (coiling s).places = s.tagsInUse := (tagsOf_eq s.coiler s.stations).symm

/-- The new tags of a TAG_LOAD that passes the checks of R151. -/
theorem serveTagLoad_order {q : Prop} (count : Byte) (tags : Vector (BitVec 24) 8) (s : State) :
    OrderKept q (coiling s) (coiling (serveTagLoad count tags s).1) := by
  have same : OrderKept q (coiling s) (coiling s) := .refl _
  unfold serveTagLoad
  extract_lets n new k s1
  refine order_ite (fun _ => same) fun hrange => order_ite (fun _ => same) fun hnew => order_ite (fun _ => same) fun hused =>
    order_ite (fun _ => same) fun hroom => ?_
  have loaded : coiling s1 = { coiling s with tags := (coiling s).tags ++ new } :=
    Coiling.ext (funext fun j => by cases j <;> rfl) rfl rfl rfl
  have hlen : new.length ≤ n := by simp [new]
  have h1 : OrderKept q (coiling s) (coiling s1) := by
    rw [loaded]
    refine .load ?_ (fun t ht => ?_) (not_not.mp hnew) fun t ht hplace => hused ?_
    · exact (Nat.add_le_add_left hlen _).trans (Nat.not_lt.mp hroom)
    · have bad : ¬(t == 0 || decide (Config.tagTop < t)) = true := fun hbad =>
        hrange (.inr (.inr (List.any_eq_true.mpr ⟨t, ht, hbad⟩)))
      simp only [Bool.or_eq_true, beq_iff_eq, decide_eq_true_eq, not_or, Nat.not_lt] at bad
      exact ⟨Nat.one_le_iff_ne_zero.mpr bad.1, bad.2⟩
    · rw [places_coiling] at hplace
      exact List.any_eq_true.mpr ⟨t, ht, List.contains_iff_mem.mpr hplace⟩
  split
  · exact h1.trans (takeTag_order ..)
  · exact h1

theorem busy_of_posting {s : State} {j : ArborId} {c : Coil} (h : s.posting = some (j, c)) : s.arbor j = .busy .posting c := by
  unfold State.posting at h
  split at h
  · next ha => cases h; exact ha
  · next hb _ => cases h; exact hb
  · cases h

/-- The first outbound coil is taken, and a POSTING coil goes to its place (R153). -/
theorem serveCoilTake_order {q : Prop} (s : State) : OrderKept q (coiling s) (coiling (serveCoilTake s).1) := by
  unfold serveCoilTake
  split
  · exact .refl _
  · next c rest hout =>
    extract_lets k s1
    have taken : coiling s1 = { coiling s with outbound := rest.map Coil.tag } :=
      Coiling.ext (funext fun j => by cases j <;> rfl) rfl rfl rfl
    have fewer : (rest.map Coil.tag).Sublist (coiling s).outbound := by
      rw [coiling_outbound, hout]
      exact List.sublist_cons_self ..
    split
    · next j waiting hpost =>
      have hj : (coiling s).arbor j = some (.posting, waiting.tag) := by
        rw [← seen_busy, ← busy_of_posting hpost]
        cases j <;> rfl
      have moved : coiling (tell c.bytes (freeArbor j (postCoil waiting s1))).1 =
          { (coiling s).put j none with outbound := rest.map Coil.tag ++ [waiting.tag] } := by
        exact (postAndFree_coiling ..).trans (by rw [taken]; rfl)
      rw [moved]
      refine .post hj fewer fun hv => ?_
      have hlen := hv.2.2
      rw [coiling_outbound, hout, List.map_cons, List.length_cons] at hlen
      exact hlen
    · exact taken ▸ .drop fewer

/-! ## Attach, detach and run -/

theorem dropAll_coiler (i : Sta) (cs : List Cause) (s : State) : (cs.foldl (fun s c => dropCause i c s) s).coiler = s.coiler :=
  foldl_frame (F := fun s t => t.coiler = s.coiler) (fun _ => rfl) (fun h k => k.trans h) _
    (fun s c => (dropCause_move i c s).coiler) cs s

theorem leaveLot_coiler (i : Sta) (s : State) : (leaveLot i s).coiler = s.coiler :=
  (moveTo_move ..).coiler.trans (dropAll_coiler i conditional s)

theorem leaveLot_coiling (i : Sta) (s : State) (h : i ≠ staC0) : coiling (leaveLot i s) = coiling s := by
  rw [coiling_of_coiler (leaveLot_coiler i s)]
  unfold State.has
  rw [leaveLot_station_ne _ _ _ (Ne.symm h)]
  rfl

/-- C0 loses its lot only beside FREE arbors (R38). -/
theorem detachLot_order {q : Prop} {i : Sta} {s : State} (n : Nat) (h : detachRefused i s = false) :
    OrderKept q (coiling s) (coiling (detachLot i n s)) := by
  by_cases hi : i = staC0
  · subst hi
    have free (j : ArborId) : (coiling s).arbor j = none := by
      have held : s.coiler.a = .free ∧ s.coiler.b = .free := by
        rw [← Bool.not_eq_true, detachRefused_iff] at h
        by_contra hbusy
        exact h (.inr (.inr (.inr (.inl ⟨rfl, hbusy⟩))))
      rw [coiling_arbor]
      cases j
      · exact congrArg seen held.1
      · exact congrArg seen held.2
    have left : coiling (detachLot staC0 n s) = { coiling s with cut := (coiling (detachLot staC0 n s)).cut } := by
      unfold detachLot
      dsimp only
      rw [show loomOf staC0 = none from rfl]
      dsimp only
      rw [if_pos rfl, discardSlip_coiling, leaveLot_coiling _ _ (by decide), coiling_of_coiler (leaveLot_coiler ..),
        readyIfLeft_coiling, lotLosesStation_coiling, lotLosesStation_coiling]
    rw [left]
    exact .idle free _
  · refine .of_eq ?_
    unfold detachLot
    dsimp only
    rw [if_neg hi, leaveLot_coiling _ _ hi, readyIfLeft_coiling, lotLosesStation_coiling]
    split
    · exact detachLoom_coiling ..
    · rfl

/-- A station in order has no cause in STANDBY (R5). -/
def Calm (r : Station) : Prop := r.state = .standby → r.causes = 0

theorem calm_of_stationOk {i : Sta} {r : Station} (h : StationOk i r) : Calm r := fun hs => by
  obtain ⟨-, hfree, hheld⟩ := h
  by_cases hl : r.lot = none
  · rw [hfree hl] at hs
    split at hs <;> cases hs
  · exact (hheld hl).2.2 (.inl hs)

theorem runCloser_order {q : Prop} {s : State} (hcalm : q → (s.station staC0).causes = 0) :
    OrderKept q (coiling s) (coiling (runCloser s).1) := by
  unfold runCloser
  refine order_ite (fun _ => .of_eq (startTwist_coiling ..)) fun hw => ?_
  have still := windingArbor_eq_none (Option.not_isSome_iff_eq_none.mp hw)
  split
  · next j l hj _ =>
    refine order_ite (fun _ => ?_) fun _ => .refl _
    have start : coiling (answerOk (startTwist 4 (startCoil j l.number s))).1 = (coiling s).put j (some (.winding, none)) :=
      (startTwist_coiling ..).trans (startCoil_coiling ..)
    rw [start]
    refine .put (cut := (coiling s).cut) (.inr rfl) (fun hq hv _ => ?_) (fun _ _ => nofun) fun hv h => h.elim nofun (hv.2.2 _)
    have uncut : (coiling s).cut = false := by
      rw [coiling_cut]
      unfold State.has
      rw [hcalm hq]
      rfl
    have nocut := mt (hv.2.2 j.other) (by rw [uncut]; nofun)
    have nowind := still j.other
    rw [coiling_arbor] at nocut ⊢
    cases ho : s.arbor j.other with
    | free => rfl
    | busy ph c =>
      rw [ho] at nocut nowind
      cases ph with
      | winding | slowing => cases nowind
      | cutting => exact absurd rfl nocut
      | packing | posting => rfl
  · exact .refl _

/-- C0 starts a coil from STANDBY, where it holds no CUT_STOP, so that no arbor is CUTTING. -/
theorem runTwist_order {q : Prop} (t : Twi) {s : State} (hq : q → Calm (s.station staC0)) :
    OrderKept q (coiling s) (coiling (runTwist t s).1) := by
  unfold runTwist
  refine order_ite (fun _ => .refl _) fun hstandby => ?_
  split
  · split
    · exact order_ite (fun _ => .of_eq (startTwist_coiling ..)) fun _ => .refl _
    · exact .refl _
  · next hi =>
    have ht : twiSta t = staC0 := by revert hi; clear * -; revert t; decide
    refine order_ite (fun _ => runCloser_order fun h => hq h ?_) fun _ => .refl _
    rw [← ht]
    exact not_not.mp hstandby

end Sys2Proof.Laws
end

section
/-! What each request's owner leaves of the coiling unit. -/

namespace Sys2Proof.Laws

open Sys2Proof.Machine Sys2Proof.Safety

/-! ## The requests beside the coiling unit -/

section
variable (s : State)

@[simp] theorem answerOk_coiling : coiling (answerOk s).1 = coiling s := rfl
@[simp] theorem tell_coiling (payload : List Byte) : coiling (tell payload s).1 = coiling s := rfl
@[simp] theorem refuse_coiling (c : Code) : coiling (refuse c s).1 = coiling s := rfl

@[simp] theorem servedIte_coiling (c : Prop) [Decidable c] (a b : Served) :
    coiling (if c then a else b).1 = if c then coiling a.1 else coiling b.1 := by
  split <;> rfl

theorem serveFaultClear_coiling (p : Port) (station : Byte) : coiling (serveFaultClear p station s).1 = coiling s := by
  have clears (is : List Sta) : coiling (is.foldl (fun s i => clearFaults i s) s) = coiling s :=
    foldl_coiling s (fun _ _ => clearFaults_coiling ..) is
  unfold serveFaultClear
  dsimp only
  split
  · simp [clears]
  · split
    · exact clears _
    · rfl

theorem bindTo_coiling (i : Sta) (o : Option Port) : coiling (bindTo i o s) = coiling s := setStation_coiling s i _ rfl

theorem serveStationBind_coiling (p : Port) (station : Byte) : coiling (serveStationBind p station s).1 = coiling s := by
  unfold serveStationBind
  split
  · rfl
  · split
    · exact bindTo_coiling ..
    · simp [bindTo_coiling]

theorem serveStationUnbind_coiling (station : Byte) : coiling (serveStationUnbind station s).1 = coiling s := by
  unfold serveStationUnbind
  split
  · rfl
  · simp [bindTo_coiling]

theorem serveLotCreate_coiling (lot : BitVec 16) (kind : Byte) : coiling (serveLotCreate lot kind s).1 = coiling s := by
  unfold serveLotCreate
  dsimp only
  split
  · rfl
  · split
    · rfl
    · split
      · rfl
      · split <;> simp

theorem serveLotWrite_coiling (lot : BitVec 16) (pairs : List (Byte × BitVec 32)) :
    coiling (serveLotWrite lot pairs s).1 = coiling s := by
  unfold serveLotWrite
  dsimp only
  split
  · rfl
  · split
    · rfl
    · split
      · rfl
      · exact modLot_coiling ..

theorem serveLotCheck_coiling (lot value : BitVec 16) : coiling (serveLotCheck lot value s).1 = coiling s := by
  unfold serveLotCheck
  dsimp only
  split
  · rfl
  · split
    · rfl
    · split
      · rfl
      · simp

theorem serveLotReopen_coiling (lot : BitVec 16) : coiling (serveLotReopen lot s).1 = coiling s := by
  unfold serveLotReopen
  split
  · rfl
  · simp

theorem serveLotHold_coiling (lot : BitVec 16) : coiling (serveLotHold lot s).1 = coiling s := by
  unfold serveLotHold
  split
  · rfl
  · split <;> simp

theorem serveLotResume_coiling (lot : BitVec 16) : coiling (serveLotResume lot s).1 = coiling s := by
  unfold serveLotResume
  split
  · rfl
  · split <;> simp

theorem serveLotDelete_coiling (lot : BitVec 16) : coiling (serveLotDelete lot s).1 = coiling s := by
  unfold serveLotDelete
  split
  · simp
  · rfl

theorem serveLotAttach_coiling (station : Byte) (lot : BitVec 16) : coiling (serveLotAttach station lot s).1 = coiling s := by
  unfold serveLotAttach
  split
  · rfl
  · split
    · rfl
    · split
      · rfl
      · simp

theorem runLoom_coiling (l : Loom) : coiling (runLoom l s).1 = coiling s := by
  unfold runLoom
  dsimp only
  split
  · rfl
  · split
    · rfl
    · split
      · simp
      · split <;> simp

theorem stopTwist_coiling (t : Twi) : coiling (stopTwist t s).1 = coiling s := by
  unfold stopTwist
  split <;> simp

theorem stopLoom_coiling (l : Loom) : coiling (stopLoom l s).1 = coiling s := by
  unfold stopLoom
  dsimp only
  split <;> simp

theorem serveStationStop_coiling (station : Byte) : coiling (serveStationStop station s).1 = coiling s := by
  unfold serveStationStop
  split
  · rfl
  · split
    · exact stopTwist_coiling ..
    · exact stopLoom_coiling ..
    · rfl

theorem serveBobbinRegister_coiling (bobbin : BitVec 16) (capacity : BitVec 32) :
    coiling (serveBobbinRegister bobbin capacity s).1 = coiling s := by simp [serveBobbinRegister]

theorem serveBobbinRemove_coiling (bobbin : BitVec 16) : coiling (serveBobbinRemove bobbin s).1 = coiling s := by
  unfold serveBobbinRemove
  split
  · rfl
  · simp

theorem serveBobbinIssue_coiling (station : Byte) (bobbin : BitVec 16) :
    coiling (serveBobbinIssue station bobbin s).1 = coiling s := by
  unfold serveBobbinIssue
  split
  · rfl
  · split
    · rfl
    · split
      · rfl
      · split
        · rfl
        · split
          · rfl
          · split
            · rfl
            · split <;> simp

theorem serveBobbinDoff_coiling (station : Byte) : coiling (serveBobbinDoff station s).1 = coiling s := by
  unfold serveBobbinDoff
  split
  · rfl
  · split
    · rfl
    · split <;> simp

theorem serveBobbinMount_coiling (station place : Byte) (bobbin : BitVec 16) :
    coiling (serveBobbinMount station place bobbin s).1 = coiling s := by
  unfold serveBobbinMount
  split
  · rfl
  · split
    · rfl
    · split
      · rfl
      · split <;> simp

theorem serveBobbinDismount_coiling (station place : Byte) : coiling (serveBobbinDismount station place s).1 = coiling s := by
  unfold serveBobbinDismount
  split
  · rfl
  · split
    · rfl
    · split <;> simp

theorem serveBobbinReturn_coiling (bobbin : BitVec 16) : coiling (serveBobbinReturn bobbin s).1 = coiling s := by
  unfold serveBobbinReturn
  split
  · rfl
  · simp

theorem serveSegmentWrite_coiling (index : Byte) (rows : BitVec 16) (left right stepRows next : Byte) :
    coiling (serveSegmentWrite index rows left right stepRows next s).1 = coiling s := by
  unfold serveSegmentWrite
  split
  · dsimp only
    split
    · simp
    · rfl
  · rfl

theorem rowAnswer_coiling (l : Loom) (taken : Nat) (d : Directive) (o : Option RowOrder) :
    coiling (rowAnswer l taken d o s).1 = coiling s := rfl

theorem takeReport_coiling (l : Loom) (c : NetLot) (knots : BitVec 256) : coiling (takeReport l c knots s).1 = coiling s := by
  unfold takeReport
  dsimp only
  split <;> simp [rowAnswer_coiling]

theorem serveRowReport_coiling (station : Byte) (row : BitVec 24) (knots : BitVec 256) :
    coiling (serveRowReport station row knots s).1 = coiling s := by
  unfold serveRowReport
  split
  · rfl
  · dsimp only
    split
    · rfl
    · split
      · simp [takeReport_coiling]
      · split <;> simp

theorem replyAnswer_coiling (l : Loom) (d : Directive) (o : Option RowOrder) :
    coiling (replyAnswer l d o s).1 = coiling s := rfl

theorem acceptRow_coiling (l : Loom) : coiling (acceptRow l s).1 = coiling s := by simp [acceptRow, replyAnswer_coiling]
theorem abandonRow_coiling (l : Loom) : coiling (abandonRow l s).1 = coiling s := by simp [abandonRow, replyAnswer_coiling]

theorem serveRowReply_coiling (station value : Byte) : coiling (serveRowReply station value s).1 = coiling s := by
  unfold serveRowReply
  split
  · rfl
  · simp [acceptRow_coiling, abandonRow_coiling]

theorem serveKnotFaultRead_coiling (station count : Byte) : coiling (serveKnotFaultRead station count s).1 = coiling s := by
  unfold serveKnotFaultRead
  split
  · rfl
  · simp

theorem serveNoticeRead_coiling (p : Port) (count : Byte) : coiling (serveNoticeRead p count s).1 = coiling s := by
  simp [serveNoticeRead]

theorem serveRouteWrite_coiling (cls ports : Byte) : coiling (serveRouteWrite cls ports s).1 = coiling s := by
  unfold serveRouteWrite
  split
  · simp
  · rfl

theorem serveAttnEnable_coiling (p : Port) (value : Byte) : coiling (serveAttnEnable p value s).1 = coiling s := by
  simp [serveAttnEnable]

theorem serveSettingsWrite_coiling (pairs : List (Byte × BitVec 32)) : coiling (serveSettingsWrite pairs s).1 = coiling s := by
  unfold serveSettingsWrite
  split
  · rfl
  · simp

theorem serveCalWrite_coiling (pairs : List (Byte × BitVec 32)) : coiling (serveCalWrite pairs s).1 = coiling s := by
  unfold serveCalWrite
  split
  · rfl
  · simp

theorem serveStoreCommit_coiling (p : Port) : coiling (serveStoreCommit p s).1 = coiling s := by
  unfold serveStoreCommit
  split <;> rfl

end

/-! ## Every request -/

theorem serveLotClose_order {q : Prop} (lot : BitVec 16) (s : State) :
    OrderKept q (coiling s) (coiling (serveLotClose lot s).1) := by
  unfold serveLotClose
  split
  · exact .refl _
  · split
    · exact .refl _
    · exact .refl _
    · exact (OrderKept.of_eq ((raiseOnAll_coiling _ _ (by decide)).trans (moveLot_coiling ..))).trans (closeArbor_order ..)

theorem serveLotDetach_order {q : Prop} (station : Byte) (s : State) :
    OrderKept q (coiling s) (coiling (serveLotDetach station s).1) := by
  unfold serveLotDetach
  split
  · exact .refl _
  · split
    · exact order_ite (fun _ => .refl _) fun h => detachLot_order _ (Bool.not_eq_true _ ▸ h)
    · exact .refl _

theorem serveStationRun_order {q : Prop} (station : Byte) {s : State} (hq : q → Calm (s.station staC0)) :
    OrderKept q (coiling s) (coiling (serveStationRun station s).1) := by
  unfold serveStationRun
  split
  · exact .refl _
  · split
    · exact runTwist_order _ hq
    · exact .of_eq (runLoom_coiling ..)
    · exact .refl _

/-- Every request's owner keeps the coiling unit in order. -/
theorem owner_order {q : Prop} (p : Port) (r : Request) {s : State} (hq : q → Calm (s.station staC0)) :
    OrderKept q (coiling s) (coiling (owner p r s).1) := by
  cases r with
  | faultClear => exact .of_eq (serveFaultClear_coiling ..)
  | stationBind => exact .of_eq (serveStationBind_coiling ..)
  | stationUnbind => exact .of_eq (serveStationUnbind_coiling ..)
  | lotCreate => exact .of_eq (serveLotCreate_coiling ..)
  | lotWrite => exact .of_eq (serveLotWrite_coiling ..)
  | lotCheck => exact .of_eq (serveLotCheck_coiling ..)
  | lotReopen => exact .of_eq (serveLotReopen_coiling ..)
  | lotHold => exact .of_eq (serveLotHold_coiling ..)
  | lotResume => exact .of_eq (serveLotResume_coiling ..)
  | lotClose => exact serveLotClose_order ..
  | lotDelete => exact .of_eq (serveLotDelete_coiling ..)
  | lotAttach => exact .of_eq (serveLotAttach_coiling ..)
  | lotDetach => exact serveLotDetach_order ..
  | stationRun => exact serveStationRun_order _ hq
  | stationStop => exact .of_eq (serveStationStop_coiling ..)
  | bobbinRegister => exact .of_eq (serveBobbinRegister_coiling ..)
  | bobbinRemove => exact .of_eq (serveBobbinRemove_coiling ..)
  | bobbinIssue => exact .of_eq (serveBobbinIssue_coiling ..)
  | bobbinDoff => exact .of_eq (serveBobbinDoff_coiling ..)
  | bobbinMount => exact .of_eq (serveBobbinMount_coiling ..)
  | bobbinDismount => exact .of_eq (serveBobbinDismount_coiling ..)
  | bobbinReturn => exact .of_eq (serveBobbinReturn_coiling ..)
  | segmentWrite => exact .of_eq (serveSegmentWrite_coiling ..)
  | rowReport => exact .of_eq (serveRowReport_coiling ..)
  | rowReply => exact .of_eq (serveRowReply_coiling ..)
  | knotFaultRead => exact .of_eq (serveKnotFaultRead_coiling ..)
  | coilerReport => exact serveCoilerReport_order ..
  | tagLoad => exact serveTagLoad_order ..
  | coilTake => exact serveCoilTake_order s
  | noticeRead => exact .of_eq (serveNoticeRead_coiling ..)
  | routeWrite => exact .of_eq (serveRouteWrite_coiling ..)
  | attnEnable => exact .of_eq (serveAttnEnable_coiling ..)
  | settingsWrite => exact .of_eq (serveSettingsWrite_coiling ..)
  | calWrite => exact .of_eq (serveCalWrite_coiling ..)
  | storeCommit => exact .of_eq (serveStoreCommit_coiling ..)
  | stationRead => exact .of_eq (congrArg coiling (serveStationRead_eq ..))
  | lotRead => exact .of_eq (congrArg coiling (serveLotRead_eq ..))
  | layRead => exact .of_eq (congrArg coiling (serveLayRead_eq ..))
  | bobbinRead => exact .of_eq (congrArg coiling (serveBobbinRead_eq ..))
  | feedRead => exact .of_eq (congrArg coiling (serveFeedRead_eq ..))
  | segmentRead => exact .of_eq (congrArg coiling (serveSegmentRead_eq ..))
  | loomRead => exact .of_eq (congrArg coiling (serveLoomRead_eq ..))
  | coilerRead => exact .of_eq (congrArg coiling (serveCoilerRead_eq ..))
  | portStatus | meterRead | routeRead | settingsRead | calRead => exact .refl _

end Sys2Proof.Laws
end

section
/-! The coiling unit through every command, and the statement about steps (O59). -/

namespace Sys2Proof.Laws

open Sys2Proof.Machine Sys2Proof.Safety

/-! ## Ports -/

theorem checked_order {q : Prop} (p : Port) (r : Request) {s : State} (hq : q → Calm (s.station staC0)) :
    OrderKept q (coiling s) (coiling (checked p r s).1) := by
  unfold checked
  refine order_ite (fun _ => .refl _) fun _ => ?_
  split
  · exact order_ite (fun _ => owner_order p r hq) fun _ => .refl _
  · exact owner_order p r hq

theorem takeRequest_order {q : Prop} (p : Port) (r : Request) {s : State} (hq : q → Calm (s.station staC0)) :
    OrderKept q (coiling s) (coiling (takeRequest p r s)) := checked_order p r hq

theorem takeFrame_order {q : Prop} (p : Port) (f : Frame) {s : State} (hq : q → Calm (s.station staC0)) :
    OrderKept q (coiling s) (coiling (takeFrame p f s)) := by
  unfold takeFrame
  split
  · exact .refl _
  · exact takeRequest_order p _ hq

theorem arrive_order {q : Prop} (p : Port) (f : Frame) {take : State → State} {s : State} (hq : q → Calm (s.station staC0))
    (h : ∀ s : State, (q → Calm (s.station staC0)) → OrderKept q (coiling s) (coiling (take s))) :
    OrderKept q (coiling s) (coiling (arrive p f take s)) := by
  have arrived : OrderKept q (coiling s) (coiling (validArrival p s)) := .of_eq (validArrival_coiling ..)
  unfold arrive
  dsimp only
  split
  · exact arrived.trans (h _ fun hq' => by rw [validArrival_station]; exact hq hq')
  · exact arrived

theorem requestArrives_order {q : Prop} (p : Port) (r : Request) {s : State} (hq : q → Calm (s.station staC0)) :
    OrderKept q (coiling s) (coiling (requestArrives p r s)) := by
  unfold requestArrives whenRunning
  split
  · split
    · exact .refl _
    · exact arrive_order _ _ hq fun s => takeRequest_order p r
  · exact .refl _

theorem frameArrives_order {q : Prop} (p : Port) (f : Frame) {s : State} (hq : q → Calm (s.station staC0)) :
    OrderKept q (coiling s) (coiling (frameArrives p f s)) := by
  unfold frameArrives whenRunning
  split
  · split
    · exact .refl _
    · exact arrive_order _ _ hq fun s => takeFrame_order p f
  · exact .refl _

theorem receiveByte_order {q : Prop} (p : Port) (b : Byte) {s : State} (hq : q → Calm (s.station staC0)) :
    OrderKept q (coiling s) (coiling (receiveByte p b s)) := by
  unfold receiveByte
  split
  · split <;> exact .refl _
  · exact .refl _
  · split
    · exact .refl _
    · split <;> exact .refl _
  · split <;> exact .refl _
  · split
    · exact frameArrives_order p _ (s := s.setPort p { s.port p with asm := .hunt }) hq
    · exact .refl _

theorem receiveBroken_coiling (p : Port) (s : State) : coiling (receiveBroken p s) = coiling s := by
  unfold receiveBroken
  split <;> rfl

theorem takeHeld_order {q : Prop} (p : Port) {s : State} (hq : q → Calm (s.station staC0)) :
    OrderKept q (coiling s) (coiling (takeHeld p s)) := by
  unfold takeHeld
  split
  · exact takeFrame_order p _ (s := s.setPort p { s.port p with held := none }) hq
  · exact .refl _

/-! ## Pulses -/

theorem useCap_order {q : Prop} (t : Twi) (d : Nat) (s : State) : OrderKept q (coiling s) (coiling (useCap t d s)) := by
  unfold useCap
  split
  · exact .of_eq (windBobbin_coiling ..)
  · extract_lets s1
    have h1 : coiling s1 = coiling s := rfl
    rw [← h1]
    split
    · exact (OrderKept.of_eq (takeUpDraw_coiling ..)).trans (meterCap_order ..)
    · exact (meterCap_order ..).trans (.of_eq (takeUpDraw_coiling ..))

theorem capEdge_order {q : Prop} (t : Twi) (s : State) : OrderKept q (coiling s) (coiling (capEdge t s)) :=
  (OrderKept.of_eq ((layCap_coiling ..).trans (accumulate_coiling ..))).trans (useCap_order ..)

theorem wheelEdge_order {q : Prop} (s : State) : OrderKept q (coiling s) (coiling (wheelEdge s)) := by
  unfold wheelEdge
  extract_lets d k s1
  have h1 : coiling s1 = coiling s := by
    unfold s1
    split
    · exact setCoiler_coiling ..
    · rfl
  exact (OrderKept.of_eq h1).trans (meterWheel_order ..)

theorem countedEdge_order {q : Prop} (c : Chan) (s : State) : OrderKept q (coiling s) (coiling (countedEdge c s)) := by
  unfold countedEdge
  split
  · dsimp only
    split
    · exact .of_eq (flyEdge_coiling ..)
    · exact capEdge_order ..
  · exact wheelEdge_order s

theorem acceptLevel_order {q : Prop} (c : Chan) (level : Bool) (s : State) :
    OrderKept q (coiling s) (coiling (acceptLevel c level s)) := by
  unfold acceptLevel
  extract_lets ch s1
  have h1 : coiling s1 = coiling s := rfl
  rw [← h1]
  split
  · exact countedEdge_order ..
  · exact .refl _

theorem rawChange_order {q : Prop} (c : Chan) (level : Bool) (s : State) :
    OrderKept q (coiling s) (coiling (rawChange c level s)) := by
  unfold rawChange
  extract_lets ch s1
  have h1 : coiling s1 = coiling s := rfl
  rw [← h1]
  split
  · exact acceptLevel_order ..
  · split <;> exact .refl _

/-! ## Every command -/

/-- The view of the saved copy. -/
def imageCoiling (s : State) : Coiling := coilingOf s.image.coiler s.image.stations

/-- A view that is in order where a part's own or its saved one is. -/
def FromViews (s : State) (w : Coiling) : Prop :=
  OrderKept (StationsOk s) (coiling s) w ∨ OrderKept (StationsOk s) (imageCoiling s) w

/-- What O59 asks of a step, said of the views. -/
structure CoilerKept (s t : State) : Prop where
  now : FromViews s (coiling t)
  saved : FromViews s (imageCoiling t)

theorem listsOk_iff (s : State) : ListsOk s ↔ (coiling s).Listed ∧ (imageCoiling s).Listed :=
  and_congr (coilerListsOk_iff ..) (coilerListsOk_iff ..)

theorem tagsOk_iff (s : State) : TagsOk s ↔ (coiling s).places.Nodup ∧ (imageCoiling s).places.Nodup := by
  unfold TagsOk
  rw [tagsOf_eq _ s.stations, tagsOf_eq _ s.image.stations]
  rfl

theorem arborsOk_iff (s : State) : ArborsOk s ↔ (coiling s).Shares ∧ (imageCoiling s).Shares :=
  and_congr (arborsShare_iff ..) (arborsShare_iff ..)

theorem CoilerKept.sound {s t : State} (h : CoilerKept s t) :
    (ListsOk s → ListsOk t) ∧ (TagsOk s → TagsOk t) ∧ (StationsOk s → ArborsOk s → ArborsOk t) := by
  rw [listsOk_iff, listsOk_iff, tagsOk_iff, tagsOk_iff, arborsOk_iff, arborsOk_iff]
  have listed {w : Coiling} (hw : FromViews s w) : (coiling s).Listed ∧ (imageCoiling s).Listed → w.Listed := fun hv =>
    hw.elim (fun k => k.listed hv.1) fun k => k.listed hv.2
  have apart {w : Coiling} (hw : FromViews s w) :
      (coiling s).places.Nodup ∧ (imageCoiling s).places.Nodup → w.places.Nodup := fun hv =>
    hw.elim (fun k => k.apart hv.1) fun k => k.apart hv.2
  have shares {w : Coiling} (hw : FromViews s w) (hs : StationsOk s) :
      (coiling s).Shares ∧ (imageCoiling s).Shares → w.Shares := fun hv =>
    hw.elim (fun k => k.shares hs hv.1) fun k => k.shares hs hv.2
  exact ⟨fun hv => ⟨listed h.now hv, listed h.saved hv⟩, fun hv => ⟨apart h.now hv, apart h.saved hv⟩,
    fun hs hv => ⟨shares h.now hs hv, shares h.saved hs hv⟩⟩

/-- What leaves the saved copy, and keeps the part's own order. -/
theorem OrderKept.coilerKept {s t : State} (h : OrderKept (StationsOk s) (coiling s) (coiling t)) (hi : t.image = s.image) :
    CoilerKept s t := ⟨.inl h, .inr (.of_eq (by unfold imageCoiling; rw [hi]))⟩

/-- A change beside the coiling unit, CUT_STOP and the saved copy. -/
theorem coilerKept_of_eq {s t : State} (h : coiling t = coiling s) (hi : t.image = s.image) : CoilerKept s t :=
  (OrderKept.of_eq h).coilerKept hi

theorem whenRunning_coilerKept {f : State → State} {s t : State}
    (h : Host.Outcome.next (φ := Fault) (ρ := Refusal) (whenRunning f s) = .next t)
    (hf : OrderKept (StationsOk s) (coiling s) (coiling (f s)) ∧ (f s).image = s.image) : CoilerKept s t := by
  cases h
  unfold whenRunning
  split
  · exact hf.1.coilerKept hf.2
  · exact coilerKept_of_eq rfl rfl

theorem calm_of_stationsOk {s : State} (h : StationsOk s) : Calm (s.station staC0) := calm_of_stationOk (h staC0).1

theorem request_coilerKept {p : Port} {r : Request} {s t : State}
    (h : Host.Outcome.next (φ := Fault) (ρ := Refusal) (requestArrives p r s) = .next t) : CoilerKept s t := by
  cases h
  exact (requestArrives_order p r calm_of_stationsOk).coilerKept (requestArrives_kept p r s).image

/-! ## Supply loss, line reset and starts -/

/-- A saved copy, and the records after a line reset, show the same view. -/
theorem coilingOf_saved (s : State) :
    coilingOf { s.coiler with markMs := none } (.ofFn fun i => (s.station i).saved) = coiling s := by
  refine Coiling.ext (funext fun j => by cases j <;> rfl) rfl rfl ?_
  unfold coilingOf
  rw [vector_ofFn_get]
  rfl

theorem takeLineReset_coiling (s : State) : coiling (takeLineReset s) = coiling s :=
  (coilingOf_saved (stopAll .reset s)).trans (stopAll_coiling s (by decide))

theorem beginSave_coiling (s : State) : coiling (beginSave s) = coiling s := by
  have stopped : coiling (beginSave s) = coiling (stopAll .power s) := by
    unfold beginSave
    generalize stopAll .power s = u
    exact setCoiler_coiling (discardSlip u) _ _ _
  exact stopped.trans (stopAll_coiling s (by decide))

theorem beginSave_coilerKept (s : State) : CoilerKept s (beginSave s) := by
  have saved : imageCoiling (beginSave s) = coiling (beginSave s) := by
    unfold imageCoiling
    rw [beginSave_image]
    exact coilingOf_saved (beginSave s)
  exact ⟨.inl (.of_eq (beginSave_coiling s)), .inl (.of_eq (saved.trans (beginSave_coiling s)))⟩

theorem warmStart_coilerKept (s : State) : CoilerKept s (warmStart s) := ⟨.inr (.refl _), .inr (.refl _)⟩

theorem coldStart_coilerKept (s : State) : CoilerKept s (coldStart s) := by
  refine ⟨.inl ⟨fun _ => ⟨Nat.zero_le _, nofun, Nat.zero_le _⟩, fun _ => List.nodup_nil, fun _ _ => ⟨?_, ?_, ?_⟩⟩,
    .inr (.refl _)⟩
  all_goals
    intro j hj
    cases j <;> cases hj

/-! ## The commands that are no request -/

theorem execRawInputChange_coilerKept {c : Chan} {level : Bool} {s t : State} (h : execRawInputChange c level s = .next t) :
    CoilerKept s t := by
  unfold execRawInputChange at h
  cases h
  split
  · exact coilerKept_of_eq rfl rfl
  · split
    · exact (rawChange_order c level s).coilerKept (rawChange_kept c level s).image
    · exact coilerKept_of_eq rfl rfl

theorem execStoreCommitCompletion_coilerKept {s t : State} (h : execStoreCommitCompletion s = .next t) : CoilerKept s t := by
  refine whenRunning_coilerKept h ?_
  split
  · dsimp only
    split <;> exact ⟨.of_eq (raise_coiling ..), (raise_frame ..).image⟩
  · exact ⟨.refl _, rfl⟩

theorem execByteGapExpiry_coilerKept {p : Port} {s t : State} (h : execByteGapExpiry p s = .next t) : CoilerKept s t := by
  refine whenRunning_coilerKept h ?_
  split <;> exact ⟨.refl _, rfl⟩

theorem execAnswerComplete_coilerKept {p : Port} {s t : State} (h : execAnswerComplete p s = .next t) : CoilerKept s t := by
  refine whenRunning_coilerKept h ?_
  split
  · next a _ =>
    exact ⟨takeHeld_order p
      (s := (s.advanceUs (a.startUs + byteTimesUs (a.payload.length + 6))).setPort p { s.port p with answer := none })
      calm_of_stationsOk, (takeHeld_kept ..).image⟩
  · exact ⟨.refl _, rfl⟩

theorem execSilenceExpiry_coilerKept {p : Port} {s t : State} (h : execSilenceExpiry p s = .next t) : CoilerKept s t := by
  refine whenRunning_coilerKept h ?_
  split
  · exact ⟨.of_eq (fallSilent_coiling ..), (fallSilent_kept ..).image⟩
  · exact ⟨.refl _, rfl⟩

theorem execPendingChangeAccept_coilerKept {c : Chan} {s t : State} (h : execPendingChangeAccept c s = .next t) :
    CoilerKept s t := by
  refine whenRunning_coilerKept h ?_
  split
  · exact ⟨(OrderKept.of_eq (advanceUs_coiling s _)).trans (acceptLevel_order ..), (acceptLevel_kept ..).image⟩
  · exact ⟨.refl _, rfl⟩

theorem execWindowTimeLimitExpiry_coilerKept {t : Twi} {s u : State} (h : execWindowTimeLimitExpiry t s = .next u) :
    CoilerKept s u := by
  refine whenRunning_coilerKept h ?_
  split
  · exact ⟨.of_eq (expireWindow_coiling ..), (expireWindow_kept ..).image⟩
  · exact ⟨.refl _, rfl⟩

theorem execStillnessExpiry_coilerKept {t : Twi} {s u : State} (h : execStillnessExpiry t s = .next u) : CoilerKept s u := by
  refine whenRunning_coilerKept h ?_
  split
  · exact ⟨.of_eq (becomeStill_coiling ..), (becomeStill_kept ..).image⟩
  · exact ⟨.refl _, rfl⟩

theorem execRetryWaitExpiry_coilerKept {i : Sta} {s t : State} (h : execRetryWaitExpiry i s = .next t) : CoilerKept s t := by
  refine whenRunning_coilerKept h ?_
  split
  · exact ⟨.of_eq (setStation_coiling _ i _ rfl), rfl⟩
  · exact ⟨.refl _, rfl⟩

theorem execRunUpLong_coilerKept {t : Twi} {s u : State} (h : execRunUpLong t s = .next u) : CoilerKept s u := by
  refine whenRunning_coilerKept h ?_
  split
  · exact ⟨.of_eq (longRunUp_coiling ..), (longRunUp_kept ..).image⟩
  · exact ⟨.refl _, rfl⟩

theorem execRunDownLong_coilerKept {t : Twi} {s u : State} (h : execRunDownLong t s = .next u) : CoilerKept s u := by
  refine whenRunning_coilerKept h ?_
  split
  · exact ⟨.of_eq (longRunDown_coiling ..), (longRunDown_kept ..).image⟩
  · exact ⟨.refl _, rfl⟩

theorem execMarkPulseEnd_coilerKept {s t : State} (h : execMarkPulseEnd s = .next t) : CoilerKept s t := by
  refine whenRunning_coilerKept h ?_
  split
  · exact ⟨.of_eq (setCoiler_coiling (s.advanceMs _) _ _ _), rfl⟩
  · exact ⟨.refl _, rfl⟩

theorem execLineReset_coilerKept {s t : State} (h : execLineReset s = .next t) : CoilerKept s t := by
  refine whenRunning_coilerKept h ?_
  split
  · exact ⟨.of_eq (takeLineReset_coiling _), (takeLineReset_kept _).image⟩
  · exact ⟨.refl _, rfl⟩

theorem execSupplyLow_coilerKept {s t : State} (h : execSupplyLow s = .next t) : CoilerKept s t := by
  unfold execSupplyLow at h
  cases h
  split
  · exact beginSave_coilerKept s
  all_goals exact coilerKept_of_eq rfl rfl

theorem execSaveComplete_coilerKept {s t : State} (h : execSaveComplete s = .next t) : CoilerKept s t := by
  unfold execSaveComplete at h
  cases h
  split
  · split
    · have kept := warmStart_coilerKept { s with imageValid := true }
      exact ⟨kept.now, kept.saved⟩
    · exact coilerKept_of_eq rfl rfl
  · exact coilerKept_of_eq rfl rfl

theorem execSupplyRecovery_coilerKept {s t : State} (h : execSupplyRecovery s = .next t) : CoilerKept s t := by
  unfold execSupplyRecovery at h
  cases h
  split
  · exact warmStart_coilerKept s
  all_goals exact coilerKept_of_eq rfl rfl

theorem execPowerUp_coilerKept {s t : State} (h : execPowerUp s = .next t) : CoilerKept s t := by
  unfold execPowerUp at h
  cases h
  split
  · split
    · exact warmStart_coilerKept s
    · exact coldStart_coilerKept s
  · exact coilerKept_of_eq rfl rfl

theorem execResetAssert_coilerKept {s t : State} (h : execResetAssert s = .next t) : CoilerKept s t := by
  unfold execResetAssert at h
  cases h
  split <;> exact coilerKept_of_eq rfl rfl

/-- Every command keeps the coiling unit and its saved copy in order. -/
theorem exec_coilerKept {c : Instr} {s t : State} (h : exec c s = .next t) : CoilerKept s t := by
  cases c with
  | unknownRequest p kind payload =>
    cases h
    exact (frameArrives_order p _ calm_of_stationsOk).coilerKept (frameArrives_kept ..).image
  | byteReceived p b stop =>
    refine whenRunning_coilerKept h ?_
    split
    · exact ⟨receiveByte_order p b calm_of_stationsOk, (receiveByte_kept ..).image⟩
    · exact ⟨.of_eq (receiveBroken_coiling ..), (receiveBroken_kept ..).image⟩
  | byteGapExpiry => exact execByteGapExpiry_coilerKept h
  | answerComplete => exact execAnswerComplete_coilerKept h
  | silenceExpiry => exact execSilenceExpiry_coilerKept h
  | rawInputChange => exact execRawInputChange_coilerKept h
  | pendingChangeAccept => exact execPendingChangeAccept_coilerKept h
  | windowTimeLimitExpiry => exact execWindowTimeLimitExpiry_coilerKept h
  | stillnessExpiry => exact execStillnessExpiry_coilerKept h
  | retryWaitExpiry => exact execRetryWaitExpiry_coilerKept h
  | runUpLong => exact execRunUpLong_coilerKept h
  | runDownLong => exact execRunDownLong_coilerKept h
  | markPulseEnd => exact execMarkPulseEnd_coilerKept h
  | storeCommitCompletion => exact execStoreCommitCompletion_coilerKept h
  | supplyLow => exact execSupplyLow_coilerKept h
  | saveComplete => exact execSaveComplete_coilerKept h
  | supplyRecovery => exact execSupplyRecovery_coilerKept h
  | powerUp => exact execPowerUp_coilerKept h
  | powerFailure => cases h; exact coilerKept_of_eq rfl rfl
  | resetAssert => exact execResetAssert_coilerKept h
  | lineReset => exact execLineReset_coilerKept h
  | resetRelease => cases h; exact coilerKept_of_eq rfl rfl
  | _ => exact request_coilerKept h

theorem step_coilerKept {s t : State} (h : step s = .next t) : CoilerKept s t := by
  unfold step at h
  split at h
  · cases h
    unfold State.tick
    split <;> exact coilerKept_of_eq rfl rfl
  · next c rest _ =>
    have kept := exec_coilerKept h
    exact ⟨kept.now, kept.saved⟩

end Sys2Proof.Laws

namespace Sys2Proof.Proofs

open Sys2Proof.Machine Sys2Proof.Safety Sys2Proof.Laws

/-- Settles O59: each command by the view of the coiling unit it leaves, of which lists, tags and arbors are read. -/
theorem stepKeepsCoilerOk : Obligations.StepKeepsCoilerOk := fun _ _ h => (step_coilerKept h).sound

end Sys2Proof.Proofs
end

section
/-! A C0 increment in the metering unit (O25): the length, the stall watch, the slip window. -/

namespace Sys2Proof.Laws

open Sys2Proof.Machine Sys2Proof.Safety

theorem raiseUnless_not (P : Prop) [Decidable P] (cls : NoticeClass) (sub : Subject) (d : BitVec 16) (s : State) :
    raiseUnless (!decide P) cls sub d s = if P then raise cls sub d s else s := by
  unfold raiseUnless
  by_cases h : P <;> simp [h]

/-! ## The three parts of an increment (R128) -/

/-- The length of a C0 increment: to a coil of source CAPSTAN or MIXED, to no WHEEL coil, and with no coil, under a stall,
to the unassigned tally. -/
def capLength (d : Nat) (coil : Option Coil) (s : State) : State :=
  match coil with
  | some c => if c.source = .wheel then s else coilIncrement d s
  | none => if s.meter.stall then addUnassigned d s else s

/-- The stall distance set. -/
def withDist (dist : Nat) (s : State) : State := s.setMeter { s.meter with stallDist := dist }

/-- The stall watch takes a C0 increment (R133). -/
def stallWatch (d : Nat) (s : State) : State :=
  let dist := min Config.stallUm (s.meter.stallDist + d)
  if dist = Config.stallUm ∧ s.meter.stall = false then takeStall (withDist dist s) else withDist dist s

/-- The slip window, if there is one, takes a C0 increment (R131). -/
def slipWatch (d : Nat) (s : State) : State :=
  if s.meter.slipOpen then
    let s := s.setMeter { s.meter with winCap := s.meter.winCap + d }
    if Config.slipUm ≤ s.meter.winCap then closeSlip s else s
  else s

theorem meterCap_eq (d : Nat) {s : State} (h : s.pairHolds = true) :
    meterCap d s = slipWatch d (stallWatch d (capLength d s.receivingCoil s)) := if_pos h

/-! ## The receiving coil -/

theorem receiving_of_arbors {s t : State} {j : ArborId} (hr : s.receiving = some j) (ho : t.arbor j.other = s.arbor j.other)
    (hj : (t.arbor j).receives = true) : t.receiving = some j := by
  unfold State.receiving at hr ⊢
  cases j with
  | a => exact if_pos hj
  | b =>
    have ha : t.coiler.a = s.coiler.a := ho
    split at hr
    · cases hr
    · next hn => rw [ha, if_neg hn, if_pos (show t.coiler.b.receives = true from hj)]

theorem receivingCoil_congr {s t : State} (h : t.coiler = s.coiler) : t.receivingCoil = s.receivingCoil := by
  unfold State.receivingCoil State.receiving State.arbor
  rw [h]

theorem modCoil_busy {j : ArborId} {ph : ArborPhase} {c : Coil} {s : State} (h : s.arbor j = .busy ph c) (f : Coil → Coil) :
    modCoil j f s = s.setArbor j (.busy ph (f c)) := by
  unfold modCoil
  rw [h]

/-- The receiving coil after an increment is the same coil, grown. -/
theorem coilIncrement_receivingCoil (d : Nat) {s : State} {j : ArborId} {ph : ArborPhase} {c : Coil}
    (hr : s.receiving = some j) (ha : s.arbor j = .busy ph c) : (coilIncrement d s).receivingCoil = some { c with length := c.length.add d } := by
  have grownAt (ph' : ArborPhase) (hph : ph'.receives = true) (mark : Bool) :
      (coilAt j ph' { c with length := c.length.add d } mark s).receivingCoil = some { c with length := c.length.add d } := by
    have harb : (coilAt j ph' { c with length := c.length.add d } mark s).arbor j = _ := arbor_setArbor ..
    have hother : (coilAt j ph' { c with length := c.length.add d } mark s).arbor j.other = s.arbor j.other := by
      cases j <;> rfl
    exact receivingCoil_of_busy (receiving_of_arbors hr hother (by rw [harb]; exact hph)) harb
  obtain ⟨ph', mark, ⟨e, rfl | hw⟩ | ⟨rfl, e⟩⟩ := coilIncrement_cases d hr ha
  · rw [e]; exact grownAt ph' (receives_of_busy hr ha) mark
  · rw [e]; exact grownAt ph' (receives_of_winds hw) mark
  · rw [e, receivingCoil_congr (cutCauses_move ..).coiler]; exact grownAt .cutting rfl mark

/-! ## The stall watch (R133) -/

/-- An increment that takes no stall: one is there already, or the distance is not reached. -/
theorem stallWatch_runs {d : Nat} {s : State} (h : s.meter.stall = true ∨ s.meter.stallDist + d < 2000000) :
    stallWatch d s = withDist (min 2000000 (s.meter.stallDist + d)) s := by
  refine if_neg fun ⟨hdist, hstall⟩ => ?_
  rcases h with h | h
  · rw [hstall] at h; cases h
  · have : min 2000000 (s.meter.stallDist + d) = 2000000 := hdist
    omega

theorem stallWatch_stalls {d : Nat} {s : State} (hs : s.meter.stall = false) (h : 2000000 ≤ s.meter.stallDist + d) :
    stallWatch d s = takeStall (withDist 2000000 s) := by
  have hdist : min Config.stallUm (s.meter.stallDist + d) = 2000000 := Nat.min_eq_left h
  unfold stallWatch
  rw [hdist]
  exact if_pos ⟨rfl, hs⟩

/-- The stall with its notice. -/
def stallTold (s : State) : State :=
  raiseUnless (s.settings.disable.getLsbD 7) .wheel (.station staK0) 0x505 (s.setMeter { s.meter with stall := true })

theorem stallTold_coiler (s : State) : (stallTold s).coiler = s.coiler := (raiseUnless_frame ..).coiler

theorem stallTold_meter (s : State) : (stallTold s).meter = { s.meter with stall := true } := (raiseUnless_frame ..).meter

theorem takeStall_eq (s : State) :
    takeStall s =
      match (stallTold s).receiving, (stallTold s).receivingCoil with
      | some j, some c =>
        if c.source = .wheel then
          discardSlip (modCoil j (fun c => { c with source := if c.length = .zero then .capstan else .mixed }) (stallTold s))
        else stallTold s
      | _, _ => stallTold s := rfl

/-- A stall leaves a coil of another source as it is. -/
theorem takeStall_beside {s : State} (h : ∀ c, s.receivingCoil = some c → c.source ≠ .wheel) : takeStall s = stallTold s := by
  rw [takeStall_eq, receivingCoil_congr (stallTold_coiler s)]
  split
  · next c _ hc => exact if_neg (h c hc)
  · rfl

/-- A stall converts a WHEEL coil, to CAPSTAN where it has no length, and drops its window. -/
theorem takeStall_wheel {s : State} {j : ArborId} {ph : ArborPhase} {c : Coil} (hr : s.receiving = some j)
    (ha : s.arbor j = .busy ph c) (hc : c.source = .wheel) :
    takeStall s =
      raiseUnless (s.settings.disable.getLsbD 7) .wheel (.station staK0) 0x505
        ((s.setArbor j (.busy ph { c with source := if c.length = .zero then .capstan else .mixed })).setMeter
          { s.meter with stall := true, slipOpen := false, winCap := 0, winWheel := 0 }) := by
  have hk := stallTold_coiler s
  have hrec : (stallTold s).receiving = some j := by unfold State.receiving; rw [hk]; exact hr
  have harb : (stallTold s).arbor j = .busy ph c := (arbor_congr hk j).trans ha
  rw [takeStall_eq, receivingCoil_of_busy hrec harb, hrec]
  dsimp only
  rw [if_pos hc, modCoil_busy harb]
  unfold discardSlip State.setArbor
  rw [hk, State.setCoiler_meter, stallTold_meter]
  unfold stallTold
  rw [← raiseUnless_setCoiler, ← raiseUnless_setMeter]
  rfl

/-! ## The slip window (R131, R132) -/

theorem slipWatch_none {d : Nat} {s : State} (h : s.meter.slipOpen = false) : slipWatch d s = s :=
  if_neg (by rw [h]; nofun)

theorem slipWatch_runs {d : Nat} {s : State} (h : s.meter.slipOpen = true) (hd : s.meter.winCap + d < 10000000) :
    slipWatch d s = s.setMeter { s.meter with winCap := s.meter.winCap + d } :=
  (if_pos h).trans (if_neg (Nat.not_le.mpr hd))

/-- A coil after the close of a window with the slip `x` (R132). -/
def judged (r : RopeLot) (x : Int) (c : Coil) : Coil :=
  { c with slip := some (greaterSlip c.slip x), slipFlag := c.slipFlag || decide (r.slip < x.natAbs) }

/-- The close of a window over a WHEEL coil: the coil is judged, with a notice beyond the lot's slip limit, and the next
window opens. -/
theorem closeSlip_wheel {s : State} {j : ArborId} {ph : ArborPhase} {c : Coil} {r : RopeLot} {x : Int}
    (hr : s.receiving = some j) (ha : s.arbor j = .busy ph c) (hc : c.source = .wheel) (hl : s.ropeOf c.lot = some r)
    (hx : slipOf s.meter.winCap s.meter.winWheel = x) :
    closeSlip s =
      raiseUnless (!decide (r.slip < x.natAbs ∧ s.settings.disable.getLsbD 6 = false)) .slip (.station staK0)
        (BitVec.ofInt 16 x)
        ((s.setArbor j (.busy ph (judged r x c))).setMeter
          { s.meter with slipOpen := true, winCap := 0, winWheel := 0, lastSlip := some x }) := by
  unfold closeSlip
  rw [hx]
  extract_lets slip m s1
  have hslip : slip = x := rfl
  clear_value slip
  subst hslip
  have hrec : s1.receiving = some j := hr
  have hcoil : s1.receivingCoil = some c := receivingCoil_of_busy (s := s) hr ha
  have hrope : s1.ropeOf c.lot = some r := hl
  have harb : s1.arbor j = .busy ph c := ha
  rw [hrec, hcoil]
  dsimp only
  rw [hrope]
  dsimp only
  rw [if_pos hc, modCoil_busy harb]
  have told (u : State) (hu : u.settings = s.settings) :
      (if decide (r.slip < slip.natAbs) = true then warn .slip .slip (.station staK0) (signed16 slip) u else u) =
        raiseUnless (!decide (r.slip < slip.natAbs ∧ s.settings.disable.getLsbD 6 = false)) .slip (.station staK0)
          (BitVec.ofInt 16 slip) u := by
    rw [warn_eq_raiseUnless, hu]
    by_cases h : r.slip < slip.natAbs
    · simp [h, raiseUnless, Warning.idx, signed16]
    · simp [h, raiseUnless]
  rw [told, (raiseUnless_frame ..).meter, ← raiseUnless_setMeter]
  · rfl
  · rfl

theorem slipWatch_closes {d : Nat} {s : State} {j : ArborId} {ph : ArborPhase} {c : Coil} {r : RopeLot} {x : Int}
    (ho : s.meter.slipOpen = true) (hd : 10000000 ≤ s.meter.winCap + d) (hr : s.receiving = some j)
    (ha : s.arbor j = .busy ph c) (hc : c.source = .wheel) (hl : s.ropeOf c.lot = some r)
    (hx : slipOf (s.meter.winCap + d) s.meter.winWheel = x) :
    slipWatch d s =
      raiseUnless (!decide (r.slip < x.natAbs ∧ s.settings.disable.getLsbD 6 = false)) .slip (.station staK0)
        (BitVec.ofInt 16 x)
        ((s.setArbor j (.busy ph (judged r x c))).setMeter
          { s.meter with slipOpen := true, winCap := 0, winWheel := 0, lastSlip := some x }) := by
  have closes := closeSlip_wheel (s := s.setMeter { s.meter with winCap := s.meter.winCap + d }) hr ha hc hl hx
  exact (if_pos ho).trans ((if_pos hd).trans closes)

/-! ## Both watches with no window open -/

theorem watches_run {d : Nat} {s : State} (hopen : s.meter.slipOpen = false)
    (h : s.meter.stall = true ∨ s.meter.stallDist + d < 2000000) :
    slipWatch d (stallWatch d s) = withDist (min 2000000 (s.meter.stallDist + d)) s := by
  rw [stallWatch_runs h]
  exact slipWatch_none (s := withDist _ s) hopen

/-- A stall that no WHEEL coil meets. -/
theorem watches_stall {d : Nat} {s : State} (hopen : s.meter.slipOpen = false) (hst : s.meter.stall = false)
    (hd : 2000000 ≤ s.meter.stallDist + d) (hbeside : ∀ c, s.receivingCoil = some c → c.source ≠ .wheel) :
    slipWatch d (stallWatch d s) = stallTold (withDist 2000000 s) := by
  rw [stallWatch_stalls hst hd, takeStall_beside (s := withDist 2000000 s) hbeside]
  refine slipWatch_none ?_
  rw [stallTold_meter]
  exact hopen

end Sys2Proof.Laws

namespace Sys2Proof.Proofs

open Sys2Proof.Machine Sys2Proof.Safety Sys2Proof.Laws

/-- Settles O25: the length, the stall watch and the slip window one after the other (`meterCap_eq`). -/
theorem capstanIncrementsJudgeTheWheel : Obligations.CapstanIncrementsJudgeTheWheel := by
  intro d s rope hl hrope m dist disabled stalled
  have hpair : s.pairHolds = true := by
    unfold State.pairHolds
    rw [hrope, Option.isSome_iff_ne_none.mpr hl]
    rfl
  have hcap := meterCap_eq d hpair
  have told {u : State} (hm : u.meter = m) (hset : u.settings = s.settings) : stallTold (withDist 2000000 u) = stalled u := by
    unfold stallTold withDist stalled disabled raiseUnless
    rw [← hset, ← hm]
    rfl
  have runs {u : State} (hm : u.meter = m) (hopen : m.slipOpen = false) (h : m.stall = true ∨ m.stallDist + d < 2000000) :
      slipWatch d (stallWatch d u) = { u with meter := { m with stallDist := dist } } := by
    rw [← hm] at hopen h
    rw [watches_run hopen h]
    unfold withDist
    rw [hm]
    rfl
  have stalls {u : State} (hm : u.meter = m) (hset : u.settings = s.settings) (hopen : m.slipOpen = false)
      (hst : m.stall = false) (hd : 2000000 ≤ m.stallDist + d) (hbeside : ∀ c, u.receivingCoil = some c → c.source ≠ .wheel) :
      slipWatch d (stallWatch d u) = stalled u := by
    rw [← told hm hset]
    rw [← hm] at hopen hst hd
    exact watches_stall hopen hst hd hbeside
  have beside (hn : s.receiving = none) : ∀ c, s.receivingCoil = some c → c.source ≠ .wheel := by
    rw [receivingCoil_none hn]; nofun
  refine ⟨fun hn hopen hst hd => ?_, fun hn hopen hst hd => ?_, fun hn hopen hst => ?_, fun j ph c hr ha hc hopen => ?_,
    fun j ph c hr ha hc hopen h => ?_, fun j ph c hr ha hc hst hd => ?_, fun j ph c hr ha hc hst hd hopen hw => ?_,
    fun j ph c r hr ha hc hl hst hd hopen hw => ?_⟩
  · rw [hcap, receivingCoil_none hn, capLength, if_neg (by rw [hst]; nofun)]
    exact runs rfl hopen (.inr hd)
  · rw [hcap, receivingCoil_none hn, capLength, if_neg (by rw [hst]; nofun)]
    exact stalls rfl rfl hopen hst hd (beside hn)
  · rw [hcap, receivingCoil_none hn, capLength, if_pos hst]
    exact runs (u := addUnassigned d s) rfl hopen (.inl hst)
  · have hm : (coilIncrement d s).meter = m := coilIncrement_meter d s
    have hset : (coilIncrement d s).settings = s.settings := by rw [(coilIncrement_frame d s).1]
    rw [hcap, receivingCoil_of_busy hr ha, capLength, if_neg hc]
    refine ⟨runs hm hopen, fun hst hd => stalls hm hset hopen hst hd ?_⟩
    rw [coilIncrement_receivingCoil d hr ha]
    rintro c' ⟨⟩
    exact hc
  · rw [hcap, receivingCoil_of_busy hr ha, capLength, if_pos hc]
    exact runs rfl hopen h
  · rw [hcap, receivingCoil_of_busy hr ha, capLength, if_pos hc, stallWatch_stalls hst hd,
      takeStall_wheel (s := withDist 2000000 s) hr ha hc, slipWatch_none (by rw [(raiseUnless_frame ..).meter]; rfl)]
    have zero : (if c.length = .zero then Source.capstan else .mixed) =
        if c.length.mm = 0 ∧ c.length.um = 0 then .capstan else .mixed :=
      if_congr (Len.eq_zero_iff) rfl rfl
    rw [zero]
    rfl
  · rw [hcap, receivingCoil_of_busy hr ha, capLength, if_pos hc, stallWatch_runs (.inr hd)]
    exact slipWatch_runs (s := withDist _ s) hopen hw
  · rw [hcap, receivingCoil_of_busy hr ha, capLength, if_pos hc, stallWatch_runs (.inr hd)]
    intro cap slip u
    have hslip : slipOf (m.winCap + d) m.winWheel = slip := by
      unfold slipOf slip cap
      rw [Nat.cast_add]
    have hu : u = ((withDist dist s).setArbor j (.busy ph (judged r slip c))).setMeter
        { (withDist dist s).meter with slipOpen := true, winCap := 0, winWheel := 0, lastSlip := some slip } := by
      unfold u
      rw [hopen]
      rfl
    rw [slipWatch_closes (s := withDist dist s) hopen hw hr ha hc hl hslip, raiseUnless_not, ← hu]
    rfl

end Sys2Proof.Proofs
end
